-- ==== Sys2Proof/Word.lean ====
section
/-! DEFINITION. The word types of the three cores (00_scope.md R7, R10). All values are unsigned (R10);
`+`, `*`, `^^^`, `>>>`, `<<<` on a bit vector are the wrapping operations of R11. -/

namespace Sys2Proof

/-- A message byte (R7: "Byte size: 8 bits") and an operation word (R80: 8 bits). -/
abbrev Byte := BitVec 8

/-- A 32-bit word: a lane of H32 and X86, `SEED`, `LEN`, `BLK` (R7, R20). -/
abbrev Word32 := BitVec 32

/-- A 64-bit word: a lane of X64 (R7, R20). -/
abbrev Word64 := BitVec 64

/-- Four like things numbered 1 to 4, as `h[1..4]`, `X86_C[1..4]`, `DIGEST[0..3]` (R22, R37, R121). -/
structure Quad (α : Type) where
  v1 : α
  v2 : α
  v3 : α
  v4 : α
deriving DecidableEq, Repr

/-- Two like things numbered 1 and 2, as the lanes and the digest of X64 (R23, R38). -/
structure Duo (α : Type) where
  v1 : α
  v2 : α
deriving DecidableEq, Repr

/-- The lane index `i` in 1..4 of X86 (41_hash128x86.md, notation). -/
inductive LaneIx where
  | one
  | two
  | three
  | four
deriving DecidableEq, Repr

end Sys2Proof
end

