-- ==== Sys2Proof/Config.lean ====
section
/-! DEFINITION. What an implementation fixes: the three core identities, the record `Params` of open parameters
(00_scope.md R9), and the free values, opaque constants that nothing can evaluate. -/

namespace Sys2Proof

/-- The three cores (R1). Each is a fixed identity of its core, not a run-time value (R213). -/
inductive CoreId where
  | h32
  | x86
  | x64
deriving DecidableEq, Repr

/-- `X86_FEED`, the feed-forward form: one admitted value (R121, R131). -/
inductive X86Feed where
  /-- After its rotation lane `i` adds lane `nxt(i)`. -/
  | addNext
deriving DecidableEq, Repr

/-- `X86_CROSS`, the cross-add form: one admitted value (R121, R128, R131). -/
inductive X86Cross where
  /-- `h1` becomes the sum of all four, then the others add the new `h1`. -/
  | sequential
deriving DecidableEq, Repr

/-- The parameter record of X86 (R9, R121). -/
structure X86Params where
  /-- `X86_C[1..4]`, multiply constants. -/
  c : Quad Word32
  /-- `X86_KROT[1..4]`, key rotation amounts. -/
  krot : Quad Nat
  /-- `X86_HROT[1..4]`, lane rotation amounts. -/
  hrot : Quad Nat
  /-- `X86_ADD[1..4]`, lane addends. -/
  add : Quad Word32
  feed : X86Feed
  cross : X86Cross
deriving DecidableEq, Repr

/-- The parameters of X64 (R9, R151). -/
structure X64Params where
  /-- `X64_KROT2`, the lane-2 key rotation. -/
  krot2 : Nat
  /-- `X64_HROT2`, the lane-2 lane rotation. -/
  hrot2 : Nat
deriving DecidableEq, Repr

/-- The configuration record a model takes (R9). It stands in `State` and no step writes it. -/
structure Params where
  x86 : X86Params
  x64 : X64Params
deriving DecidableEq, Repr

/-- A free 32-bit value: core, number of the draw, which register of that core (log 4, log 5). -/
opaque Config.freeWord32 : CoreId → Nat → Nat → Word32

/-- A free 64-bit value: core, number of the draw, which register of that core (log 4, log 5). -/
opaque Config.freeWord64 : CoreId → Nat → Nat → Word64

/-- What the read port returns for a byte the host did not supply (R241: "whatever the read port returns"):
core, number of the draw, offset (log 5, log 7). -/
opaque Config.freeByte : CoreId → Nat → Nat → Byte

end Sys2Proof
end

