-- ==== Sys2Proof/Syntax.lean ====
section
/-! DEFINITION. The fifteen operations (30_encoding.md R84), one constructor for each row of the opcode table, and
the fields of format U (R80). -/

namespace Sys2Proof

/-- The mnemonic stem, the step of an operation (R81). -/
inductive Stem where
  | seed
  | block
  | tail
  | final
  | emit
deriving DecidableEq, Repr

/-- The operations. None has an explicit operand (R83). -/
inductive Instr where
  | seed32
  | block32
  | tail32
  | final32
  | emit32
  | seedX86
  | blockX86
  | tailX86
  | finalX86
  | emitX86
  | seedX64
  | blockX64
  | tailX64
  | finalX64
  | emitX64
deriving DecidableEq, Repr

/-- The three fields of format U (R80): bits 7:5, 4:3, 2:0. -/
structure Fields where
  rsv : BitVec 3
  core : BitVec 2
  op : BitVec 3
deriving DecidableEq, Repr

end Sys2Proof
end

