-- ==== Sys2Proof/WellFormed.lean ====
section
/-! DEFINITION. What makes the fields of a word legal (30_encoding.md R85) and a parameter record admitted
(92_eei_decisions.md D20, D23; 42_hash128x64.md R162). -/

namespace Sys2Proof

/-- A word is legal when `rsv` = 000, `core` is not 11 and `op` is at most 100 (R85). -/
def Fields.wellFormed (f : Fields) : Bool :=
  f.rsv == 0#3 && f.core != 3#2 && decide (f.op.toNat ≤ 4)

/-- No operation has a register field, an immediate or a mode bit (R80, R83), so an operation as such has nothing
to check: every one of the fifteen is well formed. The checks are on the fields of a word. -/
def Instr.wellFormed (_ : Instr) : Bool := true

/-- A rotation amount of a lane of `w` bits: strictly between 0 and `w` (R12). -/
def rotationOk (w r : Nat) : Bool := decide (0 < r) && decide (r < w)

/-- All four amounts of a quadruple are rotations of a 32-bit word (D20: "integers 1..31"). -/
def Quad.rotationsOk (q : Quad Nat) : Bool :=
  rotationOk 32 q.v1 && rotationOk 32 q.v2 && rotationOk 32 q.v3 && rotationOk 32 q.v4

/-- An admitted parameter record: every rotation amount is in its range (D20, D23, R162). -/
def Params.admitted (p : Params) : Bool :=
  p.x86.krot.rotationsOk && p.x86.hrot.rotationsOk && rotationOk 64 p.x64.krot2 && rotationOk 64 p.x64.hrot2

end Sys2Proof
end

