-- ==== Sys2Proof/Decode.lean ====
section
/-! DEFINITION. The decoder, total on any bytes and rejecting by name, and after it the encoder
(30_encoding.md R80 to R87). -/

namespace Sys2Proof

/-- Why a word decodes to `ILLEGAL` (R85). -/
inductive Illegal where
  /-- There is no byte to decode. -/
  | noByte
  /-- `rsv` is not 000 (224 words). -/
  | reservedBits
  /-- `core` is 11 (8 words). -/
  | reservedCore
  /-- `op` is 101, 110 or 111 (9 words). -/
  | reservedOp
deriving DecidableEq, Repr

/-- What the decoder answers. -/
inductive Decoded where
  /-- An operation, and the bytes after its word. -/
  | instr (i : Instr) (rest : List Byte)
  /-- `ILLEGAL`, with the reason. -/
  | illegal (why : Illegal)
deriving DecidableEq, Repr

/-- The core an operation belongs to (R84). -/
def Instr.core : Instr → CoreId
  | .seed32 | .block32 | .tail32 | .final32 | .emit32 => .h32
  | .seedX86 | .blockX86 | .tailX86 | .finalX86 | .emitX86 => .x86
  | .seedX64 | .blockX64 | .tailX64 | .finalX64 | .emitX64 => .x64

/-- The step an operation performs (R84). -/
def Instr.stem : Instr → Stem
  | .seed32 | .seedX86 | .seedX64 => .seed
  | .block32 | .blockX86 | .blockX64 => .block
  | .tail32 | .tailX86 | .tailX64 => .tail
  | .final32 | .finalX86 | .finalX64 => .final
  | .emit32 | .emitX86 | .emitX64 => .emit

/-- The operation of a core and a step (R81, R84). -/
def instrOf : CoreId → Stem → Instr
  | .h32, .seed => .seed32
  | .h32, .block => .block32
  | .h32, .tail => .tail32
  | .h32, .final => .final32
  | .h32, .emit => .emit32
  | .x86, .seed => .seedX86
  | .x86, .block => .blockX86
  | .x86, .tail => .tailX86
  | .x86, .final => .finalX86
  | .x86, .emit => .emitX86
  | .x64, .seed => .seedX64
  | .x64, .block => .blockX64
  | .x64, .tail => .tailX64
  | .x64, .final => .finalX64
  | .x64, .emit => .emitX64

/-- The fields of a word: `rsv` = bits 7:5, `core` = bits 4:3, `op` = bits 2:0 (R80). -/
def fieldsOf (b : Byte) : Fields :=
  { rsv := b.extractLsb' 5 3, core := b.extractLsb' 3 2, op := b.extractLsb' 0 3 }

/-- The core a `core` field names; 11 is reserved (R81). -/
def coreOfCode (c : BitVec 2) : Option CoreId :=
  if c = 0#2 then some .h32
  else if c = 1#2 then some .x86
  else if c = 2#2 then some .x64
  else none

/-- The step an `op` field names; 101, 110, 111 are reserved (R81). -/
def stemOfCode (o : BitVec 3) : Option Stem :=
  if o = 0#3 then some .seed
  else if o = 1#3 then some .block
  else if o = 2#3 then some .tail
  else if o = 3#3 then some .final
  else if o = 4#3 then some .emit
  else none

/-- Decode one word (R85: "A decoder is total: on a reserved word it answers `ILLEGAL`"), leaving `rest`. -/
def decodeWord (b : Byte) (rest : List Byte) : Decoded :=
  if (fieldsOf b).rsv ≠ 0#3 then .illegal .reservedBits
  else
    match coreOfCode (fieldsOf b).core, stemOfCode (fieldsOf b).op with
    | none, _ => .illegal .reservedCore
    | some _, none => .illegal .reservedOp
    | some c, some o => .instr (instrOf c o) rest

/-- Decode the operation at the head of a byte sequence. An operation is always one byte (R80). -/
def decode : List Byte → Decoded
  | [] => .illegal .noByte
  | b :: rest => decodeWord b rest

/-- The `core` field of a core, its fixed identity `CORE_ID` (R81, R82). -/
def coreCode : CoreId → BitVec 2
  | .h32 => 0#2
  | .x86 => 1#2
  | .x64 => 2#2

/-- The `op` field of a step (R81). -/
def opCode : Stem → BitVec 3
  | .seed => 0#3
  | .block => 1#3
  | .tail => 2#3
  | .final => 3#3
  | .emit => 4#3

/-- A word put together from its fields: `{rsv, core, op}` (R80). -/
def wordOf (f : Fields) : Byte := f.rsv ++ f.core ++ f.op

/-- The fields of an operation (R81). -/
def Instr.fields (i : Instr) : Fields :=
  { rsv := 0#3, core := coreCode i.core, op := opCode i.stem }

/-- The words of an operation: one byte (R80, R84). -/
def encode (i : Instr) : List Byte := [wordOf i.fields]

/-- The mnemonic `<STEM>.<SUFFIX>` (R87). -/
def Instr.mnemonic (i : Instr) : String :=
  (match i.stem with
    | .seed => "SEED"
    | .block => "BLOCK"
    | .tail => "TAIL"
    | .final => "FINAL"
    | .emit => "EMIT")
  ++ "." ++
  (match i.core with
    | .h32 => "32"
    | .x86 => "X86"
    | .x64 => "X64")

/-- The bytes of a number of `nbits` bits, first byte the least significant; at least one byte, what an operation
takes (R80). -/
def tableBytes (nbits w : Nat) : List Byte :=
  (List.range (max 1 (nbits / 8))).map fun j => BitVec.ofNat 8 (w % 2 ^ nbits / 2 ^ (8 * j))

/-- The operation the decoder reads from a row of the opcode table: `nbits` bits with the value `w`. -/
def decodeTableWord (nbits w : Nat) : Option Instr :=
  match decode (tableBytes nbits w) with
  | .instr i _ => some i
  | .illegal _ => none

end Sys2Proof
end

