-- ==== Sys2Proof/Machine/Constants.lean ====
section
/-! DEFINITION. The named instantiations of the open parameters (41_hash128x86.md R121, 42_hash128x64.md R151). The
constants that are not parameters stand with the functions that use them (Machine/Mix.lean). -/

namespace Sys2Proof.Machine

/-- `REFERENCE` for X86 (R121). PRESUMED: from general knowledge, G4 to G8 (log 6). -/
def x86Reference : X86Params where
  c := ⟨0x239b961b#32, 0xab0e9789#32, 0x38b34ae5#32, 0xa1e38b93#32⟩
  krot := ⟨15, 16, 17, 18⟩
  hrot := ⟨19, 17, 15, 13⟩
  add := ⟨0x561ccd1b#32, 0x0bcaa747#32, 0x96cd1c35#32, 0x32ac3b17#32⟩
  feed := .addNext
  cross := .sequential

/-- `REFERENCE` for X64 (R151). PRESUMED: from general knowledge, G9 (log 6). -/
def x64Reference : X64Params where
  krot2 := 33
  hrot2 := 31

/-- `DOC_LITERAL` for X64 (R151): the source's "rotate-32" for both rotations of lane 2. -/
def x64DocLiteral : X64Params where
  krot2 := 32
  hrot2 := 32

/-- The default instantiation of the spec (R9, R121, R151). -/
def reference : Params where
  x86 := x86Reference
  x64 := x64Reference

/-- The literal reading of the source's text for X64 (R9, R151). -/
def docLiteral : Params where
  x86 := x86Reference
  x64 := x64DocLiteral

end Sys2Proof.Machine
end

