-- ==== Sys2Proof/Machine/State.lean ====
section
/-! DEFINITION. The state of the block, its reset value, and the closed lists of faults and refusals
(10_state.md, 20_memory.md R60, 43_sequencer_host.md R194). The three cores hold separate copies (R20). -/

namespace Sys2Proof.Machine

/-- A message space: cells (offset, byte), offsets strictly rising; an offset not listed has no byte (R60; log 7). -/
abbrev Memory := List Host.Cell

/-- What every core holds beside its lanes and its digest (R20). -/
structure Control where
  /-- `SEED`, operand register (R26). -/
  seed : Word32
  /-- `LEN`, operand register: the number of bytes of the message (R27). -/
  len : Word32
  /-- `PHASE`, first part of the program counter (R30, R31). -/
  phase : BitVec 3
  /-- `BLK`, second part of the program counter (R30, R32). -/
  blk : Word32
  /-- `DONE`, status flag (R33). -/
  done : Bool
  /-- `MSG`, the message space this core reads (R60). -/
  msg : Memory
  /-- The model's own: `SEED` has been written since reset (R232; log 12). -/
  seedWritten : Bool
  /-- The model's own: `LEN` has been written since reset (R232; log 12). -/
  lenWritten : Bool
  /-- The model's own: how many turns of this core may have drawn free values (log 5). -/
  free : Nat
deriving DecidableEq, Repr

/-- The core H32. `none` is the spec's "no value" (R24, R29; log 3). -/
structure H32 where
  ctl : Control
  /-- Lane `h` (R21). -/
  h : Option Word32
  /-- `DIGEST` (R36). -/
  digest : Option Word32
deriving DecidableEq, Repr

/-- The core X86. `none` is the spec's "no value" (R24, R29; log 3). -/
structure X86 where
  ctl : Control
  /-- Lanes `h1` to `h4` (R22). -/
  h : Quad (Option Word32)
  /-- `DIGEST[0..3]`: `v1` is `DIGEST[0]` (R37). -/
  digest : Option (Quad Word32)
deriving DecidableEq, Repr

/-- The core X64. `none` is the spec's "no value" (R24, R29; log 3). -/
structure X64 where
  ctl : Control
  /-- Lanes `h1`, `h2` (R23). -/
  h : Duo (Option Word64)
  /-- `DIGEST[0..1]`: `v1` is `DIGEST[0]` (R38). -/
  digest : Option (Duo Word64)
deriving DecidableEq, Repr

/-- A digest as the host gets it: a tuple of words and nothing more (92_eei_decisions.md D26). -/
inductive Digest where
  | h32 (d : Word32)
  | x86 (d : Quad Word32)
  | x64 (d : Duo Word64)
deriving DecidableEq, Repr

/-- The registers the host can read (R20, R194). Lanes and `BLK` have no host port (R24, R32). -/
inductive ReadPort where
  | seed
  | len
  | phase
  | done
  | digest
deriving DecidableEq, Repr

/-- What a host read returns. -/
inductive ReadValue where
  | word (w : Word32)
  | phase (p : BitVec 3)
  | flag (b : Bool)
  | digest (d : Digest)
deriving DecidableEq, Repr

/-- What the host may do to a core (R194). -/
inductive HostAction where
  | writeSeed (c : CoreId) (v : Word32)
  | writeLen (c : CoreId) (v : Word32)
  | supply (c : CoreId) (bytes : List Byte)
  | start (c : CoreId)
  | read (c : CoreId) (port : ReadPort)
  | reset (c : CoreId)
  | resetAll
deriving DecidableEq, Repr

/-- One atomic turn: a host action or one step of one core (R181, R206; log 9). -/
inductive Turn where
  | host (a : HostAction)
  | core (c : CoreId)
deriving DecidableEq, Repr

/-- The machine stops. The hardware has no fault (R200); these are the model's stuck states. -/
inductive Fault where
  /-- A turn of a core with `PHASE` = 7, which "has no step" (R181). Raised by a core's turn. Safe. -/
  | idle (c : CoreId)
  /-- The schedule is empty and every core has `PHASE` = 7 (R181, R189). Raised by the step. Safe. -/
  | allIdle
  /-- `PHASE` is 5 or 6, never reached; the core is stuck (U8). Raised by a core's turn. Safe. -/
  | stuckPhase (c : CoreId)
  /-- A block read at or beyond offset `LEN`, where there is no byte (R60, R66). Raised by `BLOCK.*` when
  `BLK` is not below `nblocks`, which no run reaches. Safe. -/
  | beyondMessage (c : CoreId)
deriving DecidableEq, Repr

/-- The spec gives the situation no meaning (R203). -/
inductive Refusal where
  /-- No meaning yet. No arm of `exec` answers it in this model. -/
  | notModelled (mnemonic : String)
  /-- A reserved operation word handed to a core (U1). Raised by `execWord`. Safe. -/
  | illegalWord (why : Illegal)
  /-- An operation word of another core handed to a core (R85, U1). Raised by `execWord`. Safe. -/
  | wrongCore (i : Instr) (c : CoreId)
  /-- A host read of `DIGEST` while it has no value (R29, U2). Raised by a host read. Safe. -/
  | digestHasNoValue (c : CoreId)
  /-- A message of 2^32 bytes or more (R203 c, U3). Raised by supplying it. Safe. -/
  | messageTooLong (c : CoreId)
  /-- A message supplied while the core is busy (R240, U5). Raised by supplying it. Unsafe: log 13. -/
  | messageInFlight (c : CoreId)
  /-- `START` with a message whose length is not `LEN` (R203 d, R241, U4). Raised by `START`. Safe. -/
  | lengthMismatch (c : CoreId)
  /-- `START` with `SEED` or `LEN` not written since reset (R232, U6). Raised by `START`. Safe. -/
  | operandsNotWritten (c : CoreId)
deriving DecidableEq, Repr

/-- The machine. -/
structure State where
  h32 : H32
  x86 : X86
  x64 : X64
  /-- The open parameters; written by nothing (R9, R131; log 6). -/
  params : Params
  /-- The model's own: the turns still to be taken, in order (log 9). -/
  schedule : List Turn
deriving DecidableEq, Repr

/-- A core's control part right after reset (R39): `PHASE` = 7 and `DONE` = 0. The spec gives `SEED`, `LEN`, `BLK`
no value: zero here, DESIGN CHOICE (log 1). It says no more of the message space than that reset does not affect it:
the empty message here, DESIGN CHOICE (log 26). -/
def Control.reset : Control where
  seed := 0
  len := 0
  phase := 7
  blk := 0
  done := false
  msg := []
  seedWritten := false
  lenWritten := false
  free := 0

/-- The machine right after reset (R39): every core idle, lanes and digests without value. -/
def State.reset : State where
  h32 := { ctl := Control.reset, h := none, digest := none }
  x86 := { ctl := Control.reset, h := ⟨none, none, none, none⟩, digest := none }
  x64 := { ctl := Control.reset, h := ⟨none, none⟩, digest := none }
  params := reference
  schedule := []

end Sys2Proof.Machine
end

