-- ==== Sys2Proof/Machine/Ops.lean ====
section
/-! DEFINITION. The named operations over words, the message space and the registers (00_scope.md R11 to R13,
20_memory.md). There is no exception entry and no return from one: no operation raises an exception
(60_exceptions.md R200, R207, R208). -/

namespace Sys2Proof

/-- `v[i]` for `i` in 1..4. -/
def Quad.get {α : Type} (q : Quad α) : LaneIx → α
  | .one => q.v1
  | .two => q.v2
  | .three => q.v3
  | .four => q.v4

/-- `v[i] <- x`. -/
def Quad.put {α : Type} (q : Quad α) (i : LaneIx) (x : α) : Quad α :=
  match i with
  | .one => { q with v1 := x }
  | .two => { q with v2 := x }
  | .three => { q with v3 := x }
  | .four => { q with v4 := x }

/-- The same function on all four. -/
def Quad.map {α β : Type} (f : α → β) (q : Quad α) : Quad β := ⟨f q.v1, f q.v2, f q.v3, f q.v4⟩

/-- One value, four times. -/
def Quad.all {α : Type} (x : α) : Quad α := ⟨x, x, x, x⟩

/-- `nxt(i)`: `i + 1` for `i` in 1..3 and 1 for `i` = 4 (41_hash128x86.md, notation). -/
def LaneIx.nxt : LaneIx → LaneIx
  | .one => .two
  | .two => .three
  | .three => .four
  | .four => .one

/-- The number `i` of a lane. -/
def LaneIx.num : LaneIx → Nat
  | .one => 1
  | .two => 2
  | .three => 3
  | .four => 4

end Sys2Proof

namespace Sys2Proof.Machine

/-- `rotl_W(x, r)`, the left rotation (R12): `((x << r) | (x >> (W - r)))`. -/
def rotl {w : Nat} (x : BitVec w) (r : Nat) : BitVec w := (x <<< r) ||| (x >>> (w - r))

/-- `le(b)`, little-endian assembly (R13): the first byte is the least significant. -/
def le : List Byte → Nat
  | [] => 0
  | b :: bs => b.toNat + 2 ^ 8 * le bs

/-- `le(b)` as a word of `w` bits; zeros enter at the top (R13, R104). -/
def leWord (w : Nat) (bs : List Byte) : BitVec w := BitVec.ofNat w (le bs)

/-- `MSG[i]` where the host supplied it. -/
def Memory.read (m : Memory) (i : Nat) : Option Byte :=
  match m with
  | [] => none
  | (a, b) :: rest => if a = i then some b else Memory.read rest i

/-- The cells of a byte sequence from offset `n` on. -/
def Memory.cellsFrom (n : Nat) : List Byte → Memory
  | [] => []
  | b :: bs => (n, b) :: Memory.cellsFrom (n + 1) bs

/-- The message space of a byte sequence: byte 0 is the first byte (R60). -/
def Memory.ofMessage (bytes : List Byte) : Memory := Memory.cellsFrom 0 bytes

/-- Offsets rise strictly from `lo` on. -/
def Memory.risingFrom (lo : Nat) : Memory → Bool
  | [] => true
  | (a, _) :: rest => decide (lo ≤ a) && Memory.risingFrom (a + 1) rest

/-- The canonical form: offsets strictly rising. An unlisted offset has no byte, so no entry equals it (log 7). -/
def Memory.wf (m : Memory) : Bool := Memory.risingFrom 0 m

/-- Offsets are `n, n+1, n+2, ..`. -/
def Memory.denseFrom (n : Nat) : Memory → Bool
  | [] => true
  | (a, _) :: rest => decide (a = n) && Memory.denseFrom (n + 1) rest

/-- The cells are those of one byte sequence: offsets 0, 1, 2, .. without a hole (R60). -/
def Memory.isMessage (m : Memory) : Bool := Memory.denseFrom 0 m

/-- The control part of a core. -/
def State.ctl (s : State) : CoreId → Control
  | .h32 => s.h32.ctl
  | .x86 => s.x86.ctl
  | .x64 => s.x64.ctl

/-- Replace the control part of a core and nothing else. -/
def State.setCtl (s : State) (c : CoreId) (k : Control) : State :=
  match c with
  | .h32 => { s with h32 := { s.h32 with ctl := k } }
  | .x86 => { s with x86 := { s.x86 with ctl := k } }
  | .x64 => { s with x64 := { s.x64 with ctl := k } }

/-- The `DIGEST` register of a core, where it has a value (R29, R36 to R38). -/
def State.digest (s : State) : CoreId → Option Digest
  | .h32 => s.h32.digest.map Digest.h32
  | .x86 => s.x86.digest.map Digest.x86
  | .x64 => s.x64.digest.map Digest.x64

/-- Take the value away from the `DIGEST` register of a core (R29). -/
def State.dropDigest (s : State) (c : CoreId) : State :=
  match c with
  | .h32 => { s with h32 := { s.h32 with digest := none } }
  | .x86 => { s with x86 := { s.x86 with digest := none } }
  | .x64 => { s with x64 := { s.x64 with digest := none } }

/-- Take the value away from the lanes of a core (R24). -/
def State.dropLanes (s : State) (c : CoreId) : State :=
  match c with
  | .h32 => { s with h32 := { s.h32 with h := none } }
  | .x86 => { s with x86 := { s.x86 with h := Quad.all none } }
  | .x64 => { s with x64 := { s.x64 with h := ⟨none, none⟩ } }

/-- The lanes of a core in order, each with or without a value; a 32-bit lane is shown zero-extended. -/
def State.lanes (s : State) : CoreId → List (Option Word64)
  | .h32 => [s.h32.h.map (·.setWidth 64)]
  | .x86 => [s.x86.h.v1, s.x86.h.v2, s.x86.h.v3, s.x86.h.v4].map fun o => o.map (·.setWidth 64)
  | .x64 => [s.x64.h.v1, s.x64.h.v2]

/-- The next free values of this core are other ones (log 5). -/
def Control.draw (k : Control) : Control := { k with free := k.free + 1 }

/-- The 32-bit view of the X64 digest (R38): low word of `h1`, high word of `h1`, low and high word of `h2`. -/
def digestWords (d : Duo Word64) : Quad Word32 :=
  ⟨d.v1.extractLsb' 0 32, d.v1.extractLsb' 32 32, d.v2.extractLsb' 0 32, d.v2.extractLsb' 32 32⟩

end Sys2Proof.Machine
end

