-- ==== Sys2Proof/Machine/Operands.lean ====
section
/-! DEFINITION. The implicit operands of the operations (30_encoding.md R83): numbers computed from `LEN`, message
bytes, and the lanes. -/

namespace Sys2Proof.Machine

/-- `BS`, the block size in bytes (R7). -/
def blockSize : CoreId → Nat
  | .h32 => 4
  | .x86 => 16
  | .x64 => 16

/-- `nblocks = floor(LEN / BS)` (R27). -/
def nblocks (bs : Nat) (len : Word32) : Nat := len.toNat / bs

/-- `r = LEN mod BS`, the number of tail bytes (R27). -/
def tailLen (bs : Nat) (len : Word32) : Nat := len.toNat % bs

/-- The bytes `off .. off+n-1` exist: `off + n <= LEN`, the condition of a read (R63, R66). -/
def inMessage (k : Control) (off n : Nat) : Bool := decide (off + n ≤ k.len.toNat)

/-- `MSG[i]` as core `c` reads it, for `i` below `LEN`. A byte the host did not supply is what the read port
returns, a free value (R241; log 7). -/
def messageByte (c : CoreId) (k : Control) (i : Nat) : Byte :=
  (Memory.read k.msg i).getD (Config.freeByte c k.free i)

/-- The bytes `MSG[off .. off+n-1]`. -/
def messageBytes (c : CoreId) (k : Control) (off n : Nat) : List Byte :=
  (List.range n).map fun j => messageByte c k (off + j)

/-- `MemRead(off, 1)` (R63). -/
def memRead8 (c : CoreId) (k : Control) (off : Nat) : Byte := leWord 8 (messageBytes c k off 1)

/-- `MemRead(off, 4)` (R63). -/
def memRead32 (c : CoreId) (k : Control) (off : Nat) : Word32 := leWord 32 (messageBytes c k off 4)

/-- `MemRead(off, 8)` (R63). -/
def memRead64 (c : CoreId) (k : Control) (off : Nat) : Word64 := leWord 64 (messageBytes c k off 8)

/-- The tail bytes `MSG[BS*nblocks .. BS*nblocks+r-1]` (R67). -/
def tailBytes (c : CoreId) (k : Control) : List Byte :=
  messageBytes c k (blockSize c * nblocks (blockSize c) k.len) (tailLen (blockSize c) k.len)

/-- Lane `h` of H32 as an operation reads it. A lane without value gives a free value; no run reads one
(R24; log 4). -/
def H32.lane (u : H32) : Word32 := u.h.getD (Config.freeWord32 .h32 u.ctl.free 1)

/-- Lanes `h1..h4` of X86 as an operation reads them (R24; log 4). -/
def X86.lanes (u : X86) : Quad Word32 where
  v1 := u.h.v1.getD (Config.freeWord32 .x86 u.ctl.free 1)
  v2 := u.h.v2.getD (Config.freeWord32 .x86 u.ctl.free 2)
  v3 := u.h.v3.getD (Config.freeWord32 .x86 u.ctl.free 3)
  v4 := u.h.v4.getD (Config.freeWord32 .x86 u.ctl.free 4)

/-- Lanes `h1`, `h2` of X64 as an operation reads them (R24; log 4). -/
def X64.lanes (u : X64) : Duo Word64 where
  v1 := u.h.v1.getD (Config.freeWord64 .x64 u.ctl.free 1)
  v2 := u.h.v2.getD (Config.freeWord64 .x64 u.ctl.free 2)

end Sys2Proof.Machine
end

