-- ==== Sys2Proof/Machine/Mix.lean ====
section
/-! DEFINITION. The mixing functions of the three variants on words and lanes, with the constants that are not
parameters (40_hash32.md, 41_hash128x86.md, 42_hash128x64.md). -/

namespace Sys2Proof.Machine

/-- `kmix32(k)`, the key mix of Hash32 (R100, R101). -/
def kmix32 (k : Word32) : Word32 := rotl (k * 0xcc9e2d51#32) 15 * 0x1b873593#32

/-- `fmix32(h)`, the 32-bit avalanche (R100, R107). -/
def fmix32 (h : Word32) : Word32 :=
  let h := h ^^^ (h >>> 16)
  let h := h * 0x85ebca6b#32
  let h := h ^^^ (h >>> 13)
  let h := h * 0xc2b2ae35#32
  h ^^^ (h >>> 16)

/-- The lane update of Hash32 with the key word `k` of a full block (R103). -/
def mixBlock32 (k h : Word32) : Word32 := rotl (h ^^^ kmix32 k) 13 * 5#32 + 0xe6546b64#32

/-- The tail fold of Hash32: "the tail step omits the final rotate/multiply/add" (R104). -/
def mixTail32 (k h : Word32) : Word32 := h ^^^ kmix32 k

/-- `kmix86_i(k)`, the key mix of lane `i` of X86 (R127). -/
def kmix86 (p : X86Params) (i : LaneIx) (k : Word32) : Word32 :=
  rotl (k * p.c.get i) (p.krot.get i) * p.c.get i.nxt

/-- The feed-forward of X86 into a rotated lane `x` from the next lane (R121, R123). -/
def feed86 (f : X86Feed) (x next : Word32) : Word32 :=
  match f with
  | .addNext => x + next

/-- The update of lane `i` in a block of X86, seeing the lanes as the updates before it left them (R123). -/
def mixLane86 (p : X86Params) (k : Quad Word32) (h : Quad Word32) (i : LaneIx) : Quad Word32 :=
  let x := h.get i ^^^ kmix86 p i (k.get i)
  let x := rotl x (p.hrot.get i)
  let x := feed86 p.feed x (h.get i.nxt)
  h.put i (x * 5#32 + p.add.get i)

/-- The block update of X86: lanes 1, 2, 3, 4 in this order (R123). -/
def mixBlock86 (p : X86Params) (k h : Quad Word32) : Quad Word32 :=
  [LaneIx.one, .two, .three, .four].foldl (mixLane86 p k) h

/-- `n_i`, how many of `r` tail bytes lane `i` has: `min(4, max(0, r - 4*(i-1)))` (R124). -/
def tailCount86 (r : Nat) (i : LaneIx) : Nat := min 4 (r - 4 * (i.num - 1))

/-- `k_i`, the tail word of lane `i` (R124). -/
def tailWord86 (tail : List Byte) (i : LaneIx) : Word32 :=
  leWord 32 ((tail.drop (4 * (i.num - 1))).take (tailCount86 tail.length i))

/-- `cross86`, the cross-add of the four lanes (R128). -/
def cross86 (f : X86Cross) (h : Quad Word32) : Quad Word32 :=
  match f with
  | .sequential =>
    let s := h.v1 + h.v2 + h.v3 + h.v4
    ⟨s, h.v2 + s, h.v3 + s, h.v4 + s⟩

/-- The finalization of X86 with the length word (R125). -/
def finish86 (p : X86Params) (len : Word32) (h : Quad Word32) : Quad Word32 :=
  cross86 p.cross ((cross86 p.cross (h.map (· ^^^ len))).map fmix32)

/-- `kmix64_1(k)`, the key mix of lane 1 of X64 (R151, R157). -/
def kmix64a (k : Word64) : Word64 := rotl (k * 0x87c37b91114253d5#64) 31 * 0x4cf5ad432745937f#64

/-- `kmix64_2(k)`, the key mix of lane 2 of X64: the mirror image of lane 1 (R151, R158). -/
def kmix64b (p : X64Params) (k : Word64) : Word64 :=
  rotl (k * 0x4cf5ad432745937f#64) p.krot2 * 0x87c37b91114253d5#64

/-- `fmix64(h)`, the 64-bit avalanche (R151, R159). -/
def fmix64 (h : Word64) : Word64 :=
  let h := h ^^^ (h >>> 33)
  let h := h * 0xff51afd7ed558ccd#64
  let h := h ^^^ (h >>> 33)
  let h := h * 0xc4ceb9fe1a85ec53#64
  h ^^^ (h >>> 33)

/-- The block update of X64: lane 1 adds the old `h2`, lane 2 adds the new `h1` (R153). -/
def mixBlock64 (p : X64Params) (k h : Duo Word64) : Duo Word64 :=
  let h1 := (rotl (h.v1 ^^^ kmix64a k.v1) 27 + h.v2) * 5#64 + 0x52dce729#64
  let h2 := (rotl (h.v2 ^^^ kmix64b p k.v2) p.hrot2 + h1) * 5#64 + 0x38495ab5#64
  ⟨h1, h2⟩

/-- `k1` of the tail of X64: tail bytes 0..7 (R154). -/
def tailWord64a (tail : List Byte) : Word64 := leWord 64 (tail.take 8)

/-- `k2` of the tail of X64: tail bytes 8..14 (R154). -/
def tailWord64b (tail : List Byte) : Word64 := leWord 64 (tail.drop 8)

/-- The cross-add of the two lanes: `h1 += h2; h2 += h1`, the second with the new `h1` (R155). -/
def cross64 (h : Duo Word64) : Duo Word64 := ⟨h.v1 + h.v2, h.v2 + (h.v1 + h.v2)⟩

/-- The finalization of X64 with the length as a 64-bit word (R155). -/
def finish64 (len : Word64) (h : Duo Word64) : Duo Word64 :=
  let h := cross64 ⟨h.v1 ^^^ len, h.v2 ^^^ len⟩
  cross64 ⟨fmix64 h.v1, fmix64 h.v2⟩

end Sys2Proof.Machine
end

