-- ==== Sys2Proof/Machine/Flags.lean ====
section
/-! DEFINITION. The flags (10_state.md R33 to R35): `DONE`, and `BUSY`, which is derived. There are no arithmetic
flags, condition codes or predicates, and no operation records a carry, an overflow, a zero or a sign (R35). -/

namespace Sys2Proof.Machine

/-- `IDLE`, the phase of a halted sequencer (R31). -/
def idlePhase : BitVec 3 := 7

/-- `BUSY`: `PHASE != 7` (R34). Phases 5 and 6 count as busy (U8). -/
def Control.busy (k : Control) : Bool := k.phase != idlePhase

/-- `DONE <- v` (R33). -/
def Control.setDone (k : Control) (v : Bool) : Control := { k with done := v }

end Sys2Proof.Machine
end

