-- ==== Sys2Proof/Machine/Sequencer.lean ====
section
/-! DEFINITION. The sequencer (30_encoding.md R82, 43_sequencer_host.md R181 to R186): the word a core issues and
how each operation moves `pc = (PHASE, BLK)`. -/

namespace Sys2Proof.Machine

/-- The word the sequencer issues: `{000, CORE_ID, PHASE}` (R82). -/
def issuedWord (c : CoreId) (phase : BitVec 3) : Byte := wordOf { rsv := 0#3, core := coreCode c, op := phase }

/-- After `SEED`: `(1, 0)` if there is a block, else `(2, 0)` (R182; for `BLK` see log 17). -/
def Control.afterSeed (k : Control) (bs : Nat) : Control :=
  { k with phase := if nblocks bs k.len > 0 then 1 else 2, blk := 0 }

/-- After `BLOCK`: `BLK` grows by one, and `PHASE` is 1 while `BLK` is below `nblocks`, else 2 (R183). -/
def Control.afterBlock (k : Control) (bs : Nat) : Control :=
  { k with phase := if (k.blk + 1).toNat < nblocks bs k.len then 1 else 2, blk := k.blk + 1 }

/-- After `TAIL` (R184). -/
def Control.afterTail (k : Control) : Control := { k with phase := 3 }

/-- After `FINAL` (R185). -/
def Control.afterFinal (k : Control) : Control := { k with phase := 4 }

/-- After `EMIT` (R186). -/
def Control.afterEmit (k : Control) : Control := { k with phase := idlePhase }

/-- A control part in which a `BLOCK` can be issued ("Issued only when `BLK < nblocks`", R103): as it is where that
holds, else block 0 of a message of at least one block (log 15). -/
def Control.withBlock (k : Control) (bs : Nat) : Control :=
  if k.blk.toNat < nblocks bs k.len then k
  else { k with blk := 0, len := if k.len.toNat < bs then BitVec.ofNat 32 bs else k.len }

/-- The state in which the very next step makes the sequencer issue the word `b` (log 15). A word no sequencer can
issue (`rsv` not 000 or `core` = 11, R85) leaves the state as it is. -/
def placeWord (s : State) (b : Byte) : State :=
  match coreOfCode (fieldsOf b).core with
  | none => s
  | some c =>
    if (fieldsOf b).rsv ≠ 0#3 then s
    else
      let k := if (fieldsOf b).op = 1#3 then (s.ctl c).withBlock (blockSize c) else s.ctl c
      let t := s.setCtl c { k with phase := (fieldsOf b).op }
      { t with schedule := .core c :: s.schedule }

end Sys2Proof.Machine
end

