-- ==== Sys2Proof/Machine/Hash128X64.lean ====
section
/-! DEFINITION. The five operations of X64 (42_hash128x64.md), each with its pc update (43_sequencer_host.md R182
to R186) as one atomic step (R181). -/

namespace Sys2Proof.Machine

/-- `SEED.X64`: both lanes from `SEED`, zero-extended (R152), pc by R182. -/
def execSeedX64 (s : State) : Host.Outcome State Fault Refusal :=
  let w := s.x64.ctl.seed.setWidth 64
  .next { s with x64 := { s.x64 with
    ctl := (s.x64.ctl.afterSeed 16).draw
    h := ⟨some w, some w⟩ } }

/-- `k1` and `k2` of the block at `BLK`, read with `MemRead` (R153). -/
def X64.blockWords (u : X64) : Duo Word64 :=
  let off := 16 * u.ctl.blk.toNat
  ⟨memRead64 .x64 u.ctl off, memRead64 .x64 u.ctl (off + 8)⟩

/-- `BLOCK.X64`: update `h1`, then `h2`, with the two words of the block (R153), pc by R183. -/
def execBlockX64 (s : State) : Host.Outcome State Fault Refusal :=
  let k := s.x64.ctl
  if inMessage k (16 * k.blk.toNat) 16 then
    let h := mixBlock64 s.params.x64 s.x64.blockWords s.x64.lanes
    .next { s with x64 := { s.x64 with
      ctl := (k.afterBlock 16).draw
      h := ⟨some h.v1, some h.v2⟩ } }
  else .fault (.beyondMessage .x64)

/-- `TAIL.X64`: `h2` if `r >= 9`, `h1` if `r >= 1` (R154), pc by R184. -/
def execTailX64 (s : State) : Host.Outcome State Fault Refusal :=
  let tail := tailBytes .x64 s.x64.ctl
  .next { s with x64 := { s.x64 with
    ctl := s.x64.ctl.afterTail.draw
    h := {
      v1 := if tail.length ≥ 1 then some (s.x64.lanes.v1 ^^^ kmix64a (tailWord64a tail)) else s.x64.h.v1
      v2 := if tail.length ≥ 9 then some (s.x64.lanes.v2 ^^^ kmix64b s.params.x64 (tailWord64b tail))
        else s.x64.h.v2 } } }

/-- `FINAL.X64`: length xor, cross-add, avalanche, cross-add (R155), pc by R185. -/
def execFinalX64 (s : State) : Host.Outcome State Fault Refusal :=
  let h := finish64 (s.x64.ctl.len.setWidth 64) s.x64.lanes
  .next { s with x64 := { s.x64 with
    ctl := s.x64.ctl.afterFinal.draw
    h := ⟨some h.v1, some h.v2⟩ } }

/-- `EMIT.X64`: `DIGEST[0..1] <- h1, h2`, `DONE <- 1`, the lanes lose their value (R156), pc by R186. -/
def execEmitX64 (s : State) : Host.Outcome State Fault Refusal :=
  .next { s with x64 := {
    ctl := (s.x64.ctl.afterEmit.setDone true).draw
    h := ⟨none, none⟩
    digest := some s.x64.lanes } }

end Sys2Proof.Machine
end

