-- ==== Sys2Proof/Machine/Hash128X86.lean ====
section
/-! DEFINITION. The five operations of X86 (41_hash128x86.md), each with its pc update (43_sequencer_host.md R182
to R186) as one atomic step (R181). -/

namespace Sys2Proof.Machine

/-- `SEED.X86`: all four lanes from `SEED` (R122), pc by R182. -/
def execSeedX86 (s : State) : Host.Outcome State Fault Refusal :=
  .next { s with x86 := { s.x86 with
    ctl := (s.x86.ctl.afterSeed 16).draw
    h := Quad.all (some s.x86.ctl.seed) } }

/-- The four words of the block at `BLK`, read with `MemRead` (R123). -/
def X86.blockWords (u : X86) : Quad Word32 :=
  let off := 16 * u.ctl.blk.toNat
  ⟨memRead32 .x86 u.ctl off, memRead32 .x86 u.ctl (off + 4), memRead32 .x86 u.ctl (off + 8),
    memRead32 .x86 u.ctl (off + 12)⟩

/-- `BLOCK.X86`: update lanes 1 to 4 with the four words of the block (R123), pc by R183. -/
def execBlockX86 (s : State) : Host.Outcome State Fault Refusal :=
  let k := s.x86.ctl
  if inMessage k (16 * k.blk.toNat) 16 then
    .next { s with x86 := { s.x86 with
      ctl := (k.afterBlock 16).draw
      h := (mixBlock86 s.params.x86 s.x86.blockWords s.x86.lanes).map some } }
  else .fault (.beyondMessage .x86)

/-- Lane `i` after the tail fold: touched only where it has tail bytes (R124). -/
def tailLane86 (p : X86Params) (u : X86) (i : LaneIx) : Option Word32 :=
  if tailCount86 (tailBytes .x86 u.ctl).length i > 0 then
    some (u.lanes.get i ^^^ kmix86 p i (tailWord86 (tailBytes .x86 u.ctl) i))
  else u.h.get i

/-- `TAIL.X86`: fold the 0 to 15 tail bytes into the lanes they reach (R124), pc by R184. The order of the lanes
cannot be observed (R124). -/
def execTailX86 (s : State) : Host.Outcome State Fault Refusal :=
  let f := tailLane86 s.params.x86 s.x86
  .next { s with x86 := { s.x86 with
    ctl := s.x86.ctl.afterTail.draw
    h := ⟨f .one, f .two, f .three, f .four⟩ } }

/-- `FINAL.X86`: length xor, cross-add, avalanche, cross-add (R125), pc by R185. -/
def execFinalX86 (s : State) : Host.Outcome State Fault Refusal :=
  .next { s with x86 := { s.x86 with
    ctl := s.x86.ctl.afterFinal.draw
    h := (finish86 s.params.x86 s.x86.ctl.len s.x86.lanes).map some } }

/-- `EMIT.X86`: `DIGEST[0..3] <- h1..h4`, `DONE <- 1`, the lanes lose their value (R126), pc by R186. -/
def execEmitX86 (s : State) : Host.Outcome State Fault Refusal :=
  .next { s with x86 := {
    ctl := (s.x86.ctl.afterEmit.setDone true).draw
    h := Quad.all none
    digest := some s.x86.lanes } }

end Sys2Proof.Machine
end

