-- ==== Sys2Proof/Machine/Hash32.lean ====
section
/-! DEFINITION. The five operations of H32 (40_hash32.md), each with its pc update (43_sequencer_host.md R182 to
R186) as one atomic step (R181). -/

namespace Sys2Proof.Machine

/-- `SEED.32`: `h <- SEED` (R102), pc by R182. -/
def execSeed32 (s : State) : Host.Outcome State Fault Refusal :=
  .next { s with h32 := { s.h32 with
    ctl := (s.h32.ctl.afterSeed 4).draw
    h := some s.h32.ctl.seed } }

/-- `BLOCK.32`: mix the word at `4*BLK` into `h` (R103), pc by R183. -/
def execBlock32 (s : State) : Host.Outcome State Fault Refusal :=
  let k := s.h32.ctl
  let off := 4 * k.blk.toNat
  if inMessage k off 4 then
    .next { s with h32 := { s.h32 with
      ctl := (k.afterBlock 4).draw
      h := some (mixBlock32 (memRead32 .h32 k off) s.h32.lane) } }
  else .fault (.beyondMessage .h32)

/-- `TAIL.32`: fold the 0 to 3 tail bytes into `h` (R104), pc by R184. With no tail byte `h` is unchanged (R104,
R184). -/
def execTail32 (s : State) : Host.Outcome State Fault Refusal :=
  let tail := tailBytes .h32 s.h32.ctl
  .next { s with h32 := { s.h32 with
    ctl := s.h32.ctl.afterTail.draw
    h := if tail.length ≥ 1 then some (mixTail32 (leWord 32 tail) s.h32.lane) else s.h32.h } }

/-- `FINAL.32`: `h <- fmix32(h ^ LEN)` (R105), pc by R185. -/
def execFinal32 (s : State) : Host.Outcome State Fault Refusal :=
  .next { s with h32 := { s.h32 with
    ctl := s.h32.ctl.afterFinal.draw
    h := some (fmix32 (s.h32.lane ^^^ s.h32.ctl.len)) } }

/-- `EMIT.32`: `DIGEST <- h`, `DONE <- 1`, `h` loses its value (R106), pc by R186. -/
def execEmit32 (s : State) : Host.Outcome State Fault Refusal :=
  .next { s with h32 := {
    ctl := (s.h32.ctl.afterEmit.setDone true).draw
    h := none
    digest := some s.h32.lane } }

end Sys2Proof.Machine
end

