-- ==== Sys2Proof/Machine/Dispatch.lean ====
section
/-! DEFINITION. The dispatcher: one arm for each operation, each one direct call of its meaning. -/

namespace Sys2Proof.Machine

def exec (i : Instr) (s : State) : Host.Outcome State Fault Refusal :=
  match i with
  | .seed32 => Sys2Proof.Machine.execSeed32 s
  | .block32 => Sys2Proof.Machine.execBlock32 s
  | .tail32 => Sys2Proof.Machine.execTail32 s
  | .final32 => Sys2Proof.Machine.execFinal32 s
  | .emit32 => Sys2Proof.Machine.execEmit32 s
  | .seedX86 => Sys2Proof.Machine.execSeedX86 s
  | .blockX86 => Sys2Proof.Machine.execBlockX86 s
  | .tailX86 => Sys2Proof.Machine.execTailX86 s
  | .finalX86 => Sys2Proof.Machine.execFinalX86 s
  | .emitX86 => Sys2Proof.Machine.execEmitX86 s
  | .seedX64 => Sys2Proof.Machine.execSeedX64 s
  | .blockX64 => Sys2Proof.Machine.execBlockX64 s
  | .tailX64 => Sys2Proof.Machine.execTailX64 s
  | .finalX64 => Sys2Proof.Machine.execFinalX64 s
  | .emitX64 => Sys2Proof.Machine.execEmitX64 s

end Sys2Proof.Machine
end

