-- ==== Sys2Proof/Machine/HostPort.lean ====
section
/-! DEFINITION. The host interface (43_sequencer_host.md R180, R187, R194; 10_state.md R28, R29, R33, R39;
70_reset_and_hazards.md R230 to R243). Each host action is atomic (R206). -/

namespace Sys2Proof.Machine

/-- Write `SEED`: taken when not busy, else dropped (R28). -/
def writeSeed (c : CoreId) (v : Word32) (s : State) : Host.Outcome State Fault Refusal :=
  if (s.ctl c).busy then .next s
  else .next (s.setCtl c { s.ctl c with seed := v, seedWritten := true })

/-- Write `LEN`: taken when not busy, else dropped (R28). -/
def writeLen (c : CoreId) (v : Word32) (s : State) : Host.Outcome State Fault Refusal :=
  if (s.ctl c).busy then .next s
  else .next (s.setCtl c { s.ctl c with len := v, lenWritten := true })

/-- Supply the message a later run reads (R194). No effect on the registers. A message longer than `LEN` can hold is
refused (U3), and so is a change while a run is in flight (R240, U5; log 13). -/
def supplyMessage (c : CoreId) (bytes : List Byte) (s : State) : Host.Outcome State Fault Refusal :=
  if (s.ctl c).busy then .refused (.messageInFlight c)
  else if bytes.length < 2 ^ 32 then .next (s.setCtl c { s.ctl c with msg := Memory.ofMessage bytes })
  else .refused (.messageTooLong c)

/-- The accepted `START` (R180): `DONE <- 0`, `BLK <- 0`, `PHASE <- 0`; the old digest is no longer offered
(R29; log 14). -/
def acceptStart (c : CoreId) (s : State) : State :=
  let k := (s.ctl c).setDone false
  (s.setCtl c { k with blk := 0, phase := 0 }).dropDigest c

/-- Pulse `START`: ignored while busy (R187), refused where the spec gives the launch no meaning (R203 d, U4, U6;
log 12), else accepted (R180). -/
def pulseStart (c : CoreId) (s : State) : Host.Outcome State Fault Refusal :=
  let k := s.ctl c
  if k.busy then .next s
  else if !(k.seedWritten && k.lenWritten) then .refused (.operandsNotWritten c)
  else if k.msg.length ≠ k.len.toNat then .refused (.lengthMismatch c)
  else .next (acceptStart c s)

/-- What a host read returns (R28, R29, R33). `DIGEST` has a value only while `DONE` = 1 (U2; log 22). -/
def hostRead (c : CoreId) (port : ReadPort) (s : State) : Except Refusal ReadValue :=
  match port with
  | .seed => .ok (.word (s.ctl c).seed)
  | .len => .ok (.word (s.ctl c).len)
  | .phase => .ok (.phase (s.ctl c).phase)
  | .done => .ok (.flag (s.ctl c).done)
  | .digest =>
    match (s.ctl c).done, s.digest c with
    | true, some d => .ok (.digest d)
    | true, none => .error (.digestHasNoValue c)
    | false, _ => .error (.digestHasNoValue c)

/-- A host read as a turn: no read has a side effect (R28, R33). -/
def readTurn (c : CoreId) (port : ReadPort) (s : State) : Host.Outcome State Fault Refusal :=
  match hostRead c port s with
  | .ok _ => .next s
  | .error r => .refused r

/-- Reset of one core (R39, R230): `PHASE` = 7, `DONE` = 0, lanes and `DIGEST` without value, `SEED`, `LEN`, `BLK`
unspecified (free values, log 2), the message space not affected. -/
def resetCore (c : CoreId) (s : State) : State :=
  let k := s.ctl c
  ((s.setCtl c {
    seed := Config.freeWord32 c k.free 5
    len := Config.freeWord32 c k.free 6
    phase := idlePhase
    blk := Config.freeWord32 c k.free 7
    done := false
    msg := k.msg
    seedWritten := false
    lenWritten := false
    free := k.free + 1 }).dropLanes c).dropDigest c

/-- Reset of all three cores (R230). -/
def resetEvery (s : State) : State := resetCore .x64 (resetCore .x86 (resetCore .h32 s))

/-- One action of the host (R194). -/
def hostAct (a : HostAction) (s : State) : Host.Outcome State Fault Refusal :=
  match a with
  | .writeSeed c v => writeSeed c v s
  | .writeLen c v => writeLen c v s
  | .supply c bytes => supplyMessage c bytes s
  | .start c => pulseStart c s
  | .read c port => readTurn c port s
  | .reset c => .next (resetCore c s)
  | .resetAll => .next (resetEvery s)

end Sys2Proof.Machine
end

