-- ==== Sys2Proof/Machine/Turn.lean ====
section
/-! DEFINITION. One turn of the machine: a step of a core (43_sequencer_host.md R181) or a host action (R194), in the
order `State.schedule` gives (R196, R206; log 9, log 10). -/

namespace Sys2Proof.Machine

/-- An operation word handed to a core: a reserved word and a word of another core have no meaning (R85, U1). -/
def execWord (c : CoreId) (b : Byte) (s : State) : Host.Outcome State Fault Refusal :=
  match decode [b] with
  | .illegal why => .refused (.illegalWord why)
  | .instr i _ => if i.core = c then exec i s else .refused (.wrongCore i c)

/-- One step of a core: it executes the word its sequencer issues (R82, R181). With `PHASE` = 7 the core has no
step; 5 and 6 are stuck (U8). -/
def coreTurn (c : CoreId) (s : State) : Host.Outcome State Fault Refusal :=
  let p := (s.ctl c).phase
  if p = idlePhase then .fault (.idle c)
  else if p.toNat ≤ 4 then execWord c (issuedWord c p) s
  else .fault (.stuckPhase c)

/-- The first busy core in the order H32, X86, X64 (log 10). -/
def firstBusy (s : State) : Option CoreId :=
  [CoreId.h32, .x86, .x64].find? fun c => (s.ctl c).busy

/-- The next turn: the head of the schedule, or where it is empty a step of the first busy core (R250). -/
def nextTurn (s : State) : Host.Outcome State Fault Refusal :=
  match s.schedule with
  | .host a :: rest => hostAct a { s with schedule := rest }
  | .core c :: rest => coreTurn c { s with schedule := rest }
  | [] =>
    match firstBusy s with
    | some c => coreTurn c s
    | none => .fault .allIdle

end Sys2Proof.Machine
end

