-- ==== Sys2Proof/Machine/Pseudo.lean ====
section
/-! DEFINITION. The three pseudo-instructions (30_encoding.md R88, 43_sequencer_host.md R191 to R193): the words a run
issues, and the turns of host and core that the call of a hash function stands for. -/

namespace Sys2Proof.Machine

/-- The number of steps of a run: `nblocks + 4` (R188). -/
def runSteps (c : CoreId) (n : Nat) : Nat := n / blockSize c + 4

/-- The operations of a run on a message of `n` bytes: `SEED`, `BLOCK` `nblocks` times, `TAIL`, `FINAL`, `EMIT`
(R88, R191 to R193). -/
def expansion (c : CoreId) (n : Nat) : List Instr :=
  [instrOf c .seed] ++ List.replicate (n / blockSize c) (instrOf c .block) ++
    [instrOf c .tail, instrOf c .final, instrOf c .emit]

/-- The words a core issues in its next `n` steps, as far as it has steps (R82). -/
def issuedWords (c : CoreId) : Nat → State → List Byte
  | 0, _ => []
  | n + 1, s =>
    match coreTurn c s with
    | .next t => issuedWord c (s.ctl c).phase :: issuedWords c n t
    | .fault _ => []
    | .refused _ => []

/-- A hash call as a schedule (R191 to R193): write `SEED`, write `LEN`, supply the message, pulse `START`, the steps
of the run, read `DONE`, read `DIGEST`. -/
def hashCall (c : CoreId) (bytes : List Byte) (seed : Word32) : List Turn :=
  [.host (.writeSeed c seed), .host (.writeLen c (BitVec.ofNat 32 bytes.length)), .host (.supply c bytes),
    .host (.start c)] ++
  List.replicate (runSteps c bytes.length) (.core c) ++
  [.host (.read c .done), .host (.read c .digest)]

end Sys2Proof.Machine
end

