-- ==== Sys2Proof/Machine/Step.lean ====
section
/-! DEFINITION. One step of the machine, and how a word is placed where the next step fetches it. -/

namespace Sys2Proof.Machine

/-- One step: the next turn (43_sequencer_host.md R181, R206). -/
def step (s : State) : Host.Outcome State Fault Refusal := nextTurn s

/-- `s` with the word `w` of `nbits` bits where the next step fetches its operation. There is no instruction memory
(20_memory.md R74): a word is issued from `PHASE`, so the word's core is given the phase, and the next turn (log 15). -/
def State.withFetchWord (s : State) (nbits w : Nat) : State := placeWord s (BitVec.ofNat 8 (w % 2 ^ nbits))

end Sys2Proof.Machine
end

