-- ==== Sys2Proof/Machine/Function.lean ====
section
/-! DEFINITION. The function level, the normative one (00_scope.md R15): each variant as a pure function of a byte
sequence and a seed (40_hash32.md R108, 41_hash128x86.md R129, 42_hash128x64.md R160). -/

namespace Sys2Proof.Machine

/-- `n` bytes of a sequence from offset `off` on. -/
def slice (m : List Byte) (off n : Nat) : List Byte := (m.drop off).take n

/-- `hash32(M, seed)` (R108). -/
def hash32 (m : List Byte) (seed : Word32) : Word32 :=
  let n := m.length / 4
  let h := (List.range n).foldl
    (fun h i => rotl (h ^^^ kmix32 (leWord 32 (slice m (4 * i) 4))) 13 * 5#32 + 0xe6546b64#32) seed
  let h := h ^^^ kmix32 (leWord 32 (slice m (4 * n) (m.length % 4)))
  fmix32 (h ^^^ BitVec.ofNat 32 m.length)

/-- The four key words of a 16-byte block: lane `i` takes bytes `4(i-1) .. 4(i-1)+3` (R123). -/
def blockWords86 (m : List Byte) (off : Nat) : Quad Word32 :=
  ⟨leWord 32 (slice m off 4), leWord 32 (slice m (off + 4) 4), leWord 32 (slice m (off + 8) 4),
    leWord 32 (slice m (off + 12) 4)⟩

/-- The tail fold of one lane of X86: a lane without tail bytes is untouched (R124). -/
def foldTail86 (p : X86Params) (tail : List Byte) (i : LaneIx) (h : Word32) : Word32 :=
  if tailCount86 tail.length i > 0 then h ^^^ kmix86 p i (tailWord86 tail i) else h

/-- `hash128_x86(M, seed)` under the parameters `p` (R129). -/
def hash128x86 (p : X86Params) (m : List Byte) (seed : Word32) : Quad Word32 :=
  let n := m.length / 16
  let h := (List.range n).foldl (fun h i => mixBlock86 p (blockWords86 m (16 * i)) h) (Quad.all seed)
  let tail := slice m (16 * n) (m.length % 16)
  let h := ⟨foldTail86 p tail .one h.v1, foldTail86 p tail .two h.v2, foldTail86 p tail .three h.v3,
    foldTail86 p tail .four h.v4⟩
  finish86 p (BitVec.ofNat 32 m.length) h

/-- The two key words of a 16-byte block (R153). -/
def blockWords64 (m : List Byte) (off : Nat) : Duo Word64 :=
  ⟨leWord 64 (slice m off 8), leWord 64 (slice m (off + 8) 8)⟩

/-- The tail fold of X64: `h2` only for `r >= 9`, `h1` only for `r >= 1` (R154). -/
def foldTail64 (p : X64Params) (tail : List Byte) (h : Duo Word64) : Duo Word64 where
  v1 := if tail.length ≥ 1 then h.v1 ^^^ kmix64a (tailWord64a tail) else h.v1
  v2 := if tail.length ≥ 9 then h.v2 ^^^ kmix64b p (tailWord64b tail) else h.v2

/-- `hash128_x64(M, seed)` under the parameters `p` (R160). -/
def hash128x64 (p : X64Params) (m : List Byte) (seed : Word32) : Duo Word64 :=
  let n := m.length / 16
  let s := seed.setWidth 64
  let h := (List.range n).foldl (fun h i => mixBlock64 p (blockWords64 m (16 * i)) h) (⟨s, s⟩ : Duo Word64)
  let h := foldTail64 p (slice m (16 * n) (m.length % 16)) h
  finish64 (BitVec.ofNat 64 m.length) h

/-- The function a core computes, under the parameters of the machine (R190). -/
def functionOf (p : Params) (c : CoreId) (m : List Byte) (seed : Word32) : Digest :=
  match c with
  | .h32 => .h32 (hash32 m seed)
  | .x86 => .x86 (hash128x86 p.x86 m seed)
  | .x64 => .x64 (hash128x64 p.x64 m seed)

end Sys2Proof.Machine
end

