-- ==== Sys2Proof/Safety.lean ====
section
/-! DEFINITION. What the statements are written in: the invariant of the machine, and what a turn leaves unchanged. -/

namespace Sys2Proof.Machine

/-- The invariant of a core's control part, for the block size `bs`.
The cells are those of one message that `LEN` can count (R27, R60); `PHASE` is 0 to 4 or 7 (R31); while busy `DONE`
is 0 (R34), `LEN` is the length of the message (R241) and both operands have been written (R232); and `BLK` lies
where the phase says (R32, R182, R183). -/
def ControlInv (bs : Nat) (k : Control) : Prop :=
  Memory.isMessage k.msg = true ∧ k.msg.length < 2 ^ 32 ∧
  (k.phase = 7 ∨ k.phase.toNat ≤ 4) ∧
  (k.phase ≠ 7 → k.done = false ∧ k.msg.length = k.len.toNat ∧ k.seedWritten = true ∧ k.lenWritten = true) ∧
  (k.phase = 0 → k.blk = 0) ∧
  (k.phase = 1 → k.blk.toNat < k.len.toNat / bs) ∧
  (k.phase = 2 ∨ k.phase = 3 ∨ k.phase = 4 → k.blk.toNat = k.len.toNat / bs)

/-- Lanes hold a value exactly from `SEED` to `EMIT` (R24). -/
def LanesInv (phase : BitVec 3) (lanes : List (Option Word64)) : Prop :=
  (phase = 1 ∨ phase = 2 ∨ phase = 3 ∨ phase = 4 → ∀ o ∈ lanes, o.isSome = true) ∧
  (phase = 0 ∨ phase = 7 → ∀ o ∈ lanes, o = none)

/-- The invariant of one core; `DIGEST` has a value exactly while `DONE` = 1 (R29). -/
def CoreInv (c : CoreId) (s : State) : Prop :=
  ControlInv (blockSize c) (s.ctl c) ∧ LanesInv (s.ctl c).phase (s.lanes c) ∧
  (s.digest c).isSome = (s.ctl c).done

/-- The invariant of the machine: admitted parameters (R162, D20) and the invariant of each core. -/
def MachineInv (s : State) : Prop := s.params.admitted = true ∧ ∀ c, CoreInv c s

/-- Two states agree on everything a core holds. -/
def SameCore (c : CoreId) (s t : State) : Prop :=
  match c with
  | .h32 => t.h32 = s.h32
  | .x86 => t.x86 = s.x86
  | .x64 => t.x64 = s.x64

/-- Nothing but core `c` changed: the other cores, the parameters and the schedule are as before (R2, R42). -/
def OthersKept (c : CoreId) (s t : State) : Prop :=
  (∀ d, d ≠ c → SameCore d s t) ∧ t.params = s.params ∧ t.schedule = s.schedule

/-- What only the host writes is as before: `SEED`, `LEN` and whether they have been written, and every byte of the
message space (R28, R62). -/
def OperandsKept (k k' : Control) : Prop :=
  k'.seed = k.seed ∧ k'.len = k.len ∧ k'.seedWritten = k.seedWritten ∧ k'.lenWritten = k.lenWritten ∧
  ∀ a, Memory.read k'.msg a = Memory.read k.msg a

/-- The frame of an operation of core `c` that leaves `DONE` and `DIGEST` alone: it may change the lanes, `PHASE` and
`BLK` of its core (and the model's own counter of free values), and nothing else. -/
def OpFrame (c : CoreId) (s t : State) : Prop :=
  OperandsKept (s.ctl c) (t.ctl c) ∧ (t.ctl c).done = (s.ctl c).done ∧ t.digest c = s.digest c ∧ OthersKept c s t

/-- The supplied message holds the bytes `bs` at the offsets `off, off+1, ..`. -/
def MsgHolds (k : Control) (off : Nat) (bs : List Byte) : Prop :=
  ∀ j b, bs[j]? = some b → Memory.read k.msg (off + j) = some b

/-- `x` is the value of the lane, where the lane has one (R24); without a value `x` is any value. -/
def ReadsAs {α : Type} (lane : Option α) (x : α) : Prop := ∀ v, lane = some v → x = v

/-- A change of the next state inside an outcome. -/
def mapNext (f : State → State) : Host.Outcome State Fault Refusal → Host.Outcome State Fault Refusal
  | .next s => .next (f s)
  | .fault r => .fault r
  | .refused r => .refused r

/-- The state with another message space for core `c` and nothing else changed. -/
def State.withMsg (s : State) (c : CoreId) (m : Memory) : State := s.setCtl c { s.ctl c with msg := m }

/-- The turn the next step takes, where there is one (log 9, log 10). -/
def turnOf (s : State) : Option Turn :=
  match s.schedule with
  | t :: _ => some t
  | [] => (firstBusy s).map Turn.core

/-- The state in which a turn of the schedule is taken: the schedule without it. -/
def State.pop (s : State) : State := { s with schedule := s.schedule.tail }

end Sys2Proof.Machine
end

