-- ==== Sys2Proof/Certificates/Slice0/Obligations.lean ====
section
/-! DEFINITION. The statements for the provers, in the order of the spec's files. "log n" is notes/assumptions/n.md. -/

section

open Sys2Proof Sys2Proof.Machine

/-! ## Notation (00_scope.md) -/

/-- R12 (log 19): the two forms of the left rotation agree, for every width and every amount strictly between 0 and it. -/
def Obligations.RotlMovesEveryBitUp : Prop :=
  ∀ (w : Nat) (x : BitVec w) (r : Nat), 0 < r → r < w →
    rotl x r = ((x <<< r) ||| (x >>> (w - r))) ∧
    ∀ i, i < w → (rotl x r).getLsbD ((i + r) % w) = x.getLsbD i

/-- R13: little-endian assembly is the weighted sum, the first byte least significant; of no byte it is 0. -/
def Obligations.LittleEndianIsTheWeightedSum : Prop :=
  le [] = 0 ∧
  ∀ bs : List Byte, le bs = ((List.range bs.length).map fun j => (bs.getD j 0).toNat * 2 ^ (8 * j)).sum

/-! ## Memory (20_memory.md) -/

/-- R63, R64: a read of 1, 4 or 8 bytes of the supplied message below `LEN` is their little-endian number. -/
def Obligations.MemReadIsLittleEndian : Prop :=
  ∀ (c : CoreId) (k : Control) (off : Nat) (bs : List Byte),
    MsgHolds k off bs → off + bs.length ≤ k.len.toNat →
    (bs.length = 1 → (memRead8 c k off).toNat = le bs) ∧
    (bs.length = 4 → (memRead32 c k off).toNat = le bs) ∧
    (bs.length = 8 → (memRead64 c k off).toNat = le bs)

/-- R64: a 4-byte or 8-byte read is the little-endian assembly of the single-byte reads of the same offsets. -/
def Obligations.WideReadsAreBuiltFromByteReads : Prop :=
  ∀ (c : CoreId) (k : Control) (off : Nat),
    (memRead32 c k off).toNat = le ((List.range 4).map fun j => memRead8 c k (off + j)) ∧
    (memRead64 c k off).toNat = le ((List.range 8).map fun j => memRead8 c k (off + j))

/-- R62: no operation writes memory: every byte of every core's message space reads as before. -/
def Obligations.NoOperationWritesMemory : Prop :=
  ∀ (i : Instr) (s t : State), exec i s = .next t →
    ∀ (c : CoreId) (a : Nat), Memory.read (t.ctl c).msg a = Memory.read (s.ctl c).msg a

/-- R66: no operation reads at or beyond offset `LEN`: with any other bytes there it does the same. -/
def Obligations.BytesBeyondLenDoNotMatter : Prop :=
  ∀ (i : Instr) (s : State) (m : Memory),
    (∀ a, a < (s.ctl i.core).len.toNat → Memory.read m a = Memory.read (s.ctl i.core).msg a) →
    exec i (s.withMsg i.core m) = mapNext (fun t => t.withMsg i.core m) (exec i s)

/-! ## Encoding (30_encoding.md) -/

/-- R84: the fifteen words, each written out. -/
def Obligations.OpcodeMapDecodes : Prop :=
  decode [0x00#8] = .instr .seed32 [] ∧ decode [0x01#8] = .instr .block32 [] ∧
  decode [0x02#8] = .instr .tail32 [] ∧ decode [0x03#8] = .instr .final32 [] ∧
  decode [0x04#8] = .instr .emit32 [] ∧ decode [0x08#8] = .instr .seedX86 [] ∧
  decode [0x09#8] = .instr .blockX86 [] ∧ decode [0x0A#8] = .instr .tailX86 [] ∧
  decode [0x0B#8] = .instr .finalX86 [] ∧ decode [0x0C#8] = .instr .emitX86 [] ∧
  decode [0x10#8] = .instr .seedX64 [] ∧ decode [0x11#8] = .instr .blockX64 [] ∧
  decode [0x12#8] = .instr .tailX64 [] ∧ decode [0x13#8] = .instr .finalX64 [] ∧
  decode [0x14#8] = .instr .emitX64 []

/-- R80, R84: the decoder reads an operation from a byte sequence exactly where the encoder's word stands at its
head, and leaves the rest (a byte sequence and its rest: log 24). -/
def Obligations.DecodeAndEncodeAgree : Prop :=
  ∀ (bs : List Byte) (i : Instr) (rest : List Byte), decode bs = .instr i rest ↔ bs = encode i ++ rest

/-- R85: a word is reserved by its `rsv`, `core` or `op` field; handed to a core, a reserved word and a word of
another core are refused; there are 241 reserved words and no sequencer issues one in phases 0 to 4. -/
def Obligations.ReservedWordsAreRefused : Prop :=
  (∀ (b : Byte) (c : CoreId) (s : State),
    (b.extractLsb' 5 3 ≠ 0#3 ∨ b.extractLsb' 3 2 = 3#2 ∨ 5 ≤ (b.extractLsb' 0 3).toNat) →
      ∃ why, decode [b] = .illegal why ∧ execWord c b s = .refused (.illegalWord why)) ∧
  (∀ (i : Instr) (c : CoreId) (s : State), i.core ≠ c →
    ∀ b, encode i = [b] → execWord c b s = .refused (.wrongCore i c)) ∧
  (((List.range 256).map (BitVec.ofNat 8)).filter fun b =>
    match decode [b] with
    | .instr _ _ => false
    | .illegal _ => true).length = 241 ∧
  ∀ (c : CoreId) (p : BitVec 3), p.toNat ≤ 4 → ∃ i, decode [issuedWord c p] = .instr i []

/-- R82: with `PHASE` in 0..4 the sequencer issues `{000, CORE_ID, PHASE}`, and the core executes the operation of
its own core whose `op` field is `PHASE`; with `PHASE` = 7 the core has no step (R82, R181). That a turn without a step
is a named fault is the model's (log 11). -/
def Obligations.SequencerIssuesItsPhase : Prop :=
  (∀ (c : CoreId) (s : State), (s.ctl c).phase.toNat ≤ 4 →
    ∃ i, decode [0#3 ++ coreCode c ++ (s.ctl c).phase] = .instr i [] ∧ i.core = c ∧
      opCode i.stem = (s.ctl c).phase ∧ coreTurn c s = exec i s) ∧
  ∀ (c : CoreId) (s : State), (s.ctl c).phase = 7 → coreTurn c s = .fault (.idle c)

/-- A step runs the decoded operation: when the next turn is a step of core `c`, at the head of the schedule or, with
an empty schedule, because `c` is the first busy core (log 10), and the word `c` issues decodes to `i`, the step is
`exec i` on the state with the turn taken off the schedule. -/
def Obligations.StepRunsTheIssuedOperation : Prop :=
  ∀ (c : CoreId) (s : State) (i : Instr) (rest : List Byte),
    turnOf s = some (.core c) → (s.ctl c).phase.toNat ≤ 4 →
    decode (issuedWord c (s.ctl c).phase :: rest) = .instr i rest →
    step s = exec i s.pop

/-- A word placed with `withFetchWord` is what the next step runs, and that step has a next state. The operation is
run on `s` with the word's phase in `PHASE` of its core and nothing else changed, but that a `BLOCK` without a block to
process gets one: `BLK` = 0 and, where `LEN` is below one block, a `LEN` of one block. The placing is the model's choice
(log 15). -/
def Obligations.PlacedWordIsStepped : Prop :=
  ∀ (i : Instr) (s : State), ∃ (blk len : Word32) (u t : State),
    u = s.setCtl i.core { s.ctl i.core with phase := opCode i.stem, blk := blk, len := len } ∧
    (i.stem ≠ .block ∨ (s.ctl i.core).blk.toNat < (s.ctl i.core).len.toNat / blockSize i.core →
      blk = (s.ctl i.core).blk ∧ len = (s.ctl i.core).len) ∧
    (i.stem = .block → (s.ctl i.core).len.toNat / blockSize i.core ≤ (s.ctl i.core).blk.toNat →
      blk = 0 ∧ len.toNat = max (s.ctl i.core).len.toNat (blockSize i.core)) ∧
    step (s.withFetchWord 8 (wordOf i.fields).toNat) = exec i u ∧ exec i u = .next t ∧ t.schedule = s.schedule

/-! ## Hash32 (40_hash32.md) -/

/-- R101: the key mix, the rule's two examples, and the value at 0, which the rule marks as its own inference. -/
def Obligations.Kmix32IsMultiplyRotateMultiply : Prop :=
  (∀ k : Word32, kmix32 k = rotl (k * 0xcc9e2d51#32) 15 * 0x1b873593#32) ∧
  kmix32 0 = 0 ∧ kmix32 0x00000001#32 = 0xc3539a5d#32 ∧ kmix32 0xffffffff#32 = 0xbbeeb010#32

/-- R107: the avalanche step by step, the rule's two examples, and the value at 0, which the rule marks as its own
inference. -/
def Obligations.Fmix32IsTheAvalanche : Prop :=
  (∀ h a b c d : Word32, a = h ^^^ (h >>> 16) → b = a * 0x85ebca6b#32 → c = b ^^^ (b >>> 13) →
    d = c * 0xc2b2ae35#32 → fmix32 h = d ^^^ (d >>> 16)) ∧
  fmix32 0 = 0 ∧ fmix32 0x00000001#32 = 0x514e28b7#32 ∧ fmix32 0xffffffff#32 = 0x81f16f39#32

/-- R109 (e): the key mix, the avalanche and the lane update are bijections on 32-bit words. -/
def Obligations.Hash32MixersAreBijections : Prop :=
  Function.Bijective kmix32 ∧ Function.Bijective fmix32 ∧
  Function.Bijective fun h : Word32 => rotl h 13 * 5#32 + 0xe6546b64#32

/-- R102: `SEED.32`. -/
def Obligations.Seed32LoadsTheSeed : Prop :=
  encode .seed32 = [0x00#8] ∧
  ∀ s : State, ∃ t, exec .seed32 s = .next t ∧ t.h32.h = some s.h32.ctl.seed ∧ OpFrame .h32 s t

/-- R103: `BLOCK.32` with the four message bytes at `4*BLK`. -/
def Obligations.Block32MixesOneWord : Prop :=
  encode .block32 = [0x01#8] ∧
  ∀ (s : State) (b0 b1 b2 b3 : Byte),
    s.h32.ctl.blk.toNat < s.h32.ctl.len.toNat / 4 →
    MsgHolds s.h32.ctl (4 * s.h32.ctl.blk.toNat) [b0, b1, b2, b3] →
    ∃ x k t, ReadsAs s.h32.h x ∧
      k = BitVec.ofNat 32 (b0.toNat + 2 ^ 8 * b1.toNat + 2 ^ 16 * b2.toNat + 2 ^ 24 * b3.toNat) ∧
      exec .block32 s = .next t ∧
      t.h32.h = some (rotl (x ^^^ kmix32 k) 13 * 5#32 + 0xe6546b64#32) ∧ OpFrame .h32 s t

/-- R104: `TAIL.32` with the `r` tail bytes `bs`; with `r` = 0 the lane is unchanged. -/
def Obligations.Tail32FoldsTheTail : Prop :=
  encode .tail32 = [0x02#8] ∧
  ∀ (s : State) (bs : List Byte), bs.length = s.h32.ctl.len.toNat % 4 →
    MsgHolds s.h32.ctl (4 * (s.h32.ctl.len.toNat / 4)) bs →
    ∃ x t, ReadsAs s.h32.h x ∧ exec .tail32 s = .next t ∧
      (1 ≤ bs.length → t.h32.h = some (x ^^^ kmix32 (BitVec.ofNat 32
        ((bs.getD 0 0).toNat + 2 ^ 8 * (bs.getD 1 0).toNat + 2 ^ 16 * (bs.getD 2 0).toNat)))) ∧
      (bs.length = 0 → t.h32.h = s.h32.h) ∧ OpFrame .h32 s t

/-- R105: `FINAL.32`. -/
def Obligations.Final32XorsTheLengthAndAvalanches : Prop :=
  encode .final32 = [0x03#8] ∧
  ∀ s : State, ∃ x t, ReadsAs s.h32.h x ∧ exec .final32 s = .next t ∧
    t.h32.h = some (fmix32 (x ^^^ s.h32.ctl.len)) ∧ OpFrame .h32 s t

/-- R106: `EMIT.32`. -/
def Obligations.Emit32WritesTheDigest : Prop :=
  encode .emit32 = [0x04#8] ∧
  ∀ s : State, ∃ x t, ReadsAs s.h32.h x ∧ exec .emit32 s = .next t ∧
    t.h32.digest = some x ∧ t.h32.ctl.done = true ∧ t.h32.h = none ∧
    OperandsKept s.h32.ctl t.h32.ctl ∧ OthersKept .h32 s t

/-- R109 (c) and the four vectors of the source (95_test_vectors.md section 1.1, S1 to S4). -/
def Obligations.Hash32SourceVectors : Prop :=
  hash32 [] 0 = 0 ∧ hash32 [] 1 = 0x514e28b7#32 ∧
  hash32 [0x61#8, 0x61#8, 0x61#8, 0x61#8] 0x9747b28c#32 = 0x5a97808a#32 ∧
  hash32 [0x48#8, 0x65#8, 0x6c#8, 0x6c#8, 0x6f#8, 0x2c#8, 0x20#8, 0x77#8, 0x6f#8, 0x72#8, 0x6c#8, 0x64#8, 0x21#8] 0
    = 0xc0363e43#32

/-! ## Hash128x86 (41_hash128x86.md) -/

/-- R127: the key mix of lane `i` for every parameter record, with `nxt(4) = 1`, and the rule's
example under REFERENCE (log 6). -/
def Obligations.Kmix86UsesTheNextConstant : Prop :=
  (∀ (p : X86Params) (k : Word32),
    kmix86 p .one k = rotl (k * p.c.v1) p.krot.v1 * p.c.v2 ∧
    kmix86 p .two k = rotl (k * p.c.v2) p.krot.v2 * p.c.v3 ∧
    kmix86 p .three k = rotl (k * p.c.v3) p.krot.v3 * p.c.v4 ∧
    kmix86 p .four k = rotl (k * p.c.v4) p.krot.v4 * p.c.v1) ∧
  (∀ (p : X86Params) (i : LaneIx), kmix86 p i 0 = 0) ∧
  kmix86 x86Reference .one 0x006f6f66#32 = 0x9e74bb04#32

/-- R128: `cross86`, statement by statement. The form is the published algorithm's (log 18). -/
def Obligations.Cross86IsSequential : Prop :=
  ∀ h : Quad Word32, ∃ a, a = ((h.v1 + h.v2) + h.v3) + h.v4 ∧
    cross86 .sequential h = ⟨a, h.v2 + a, h.v3 + a, h.v4 + a⟩

/-- R122: `SEED.X86`. -/
def Obligations.SeedX86LoadsAllLanes : Prop :=
  encode .seedX86 = [0x08#8] ∧
  ∀ s : State, ∃ t, exec .seedX86 s = .next t ∧ (∀ i, t.x86.h.get i = some s.x86.ctl.seed) ∧ OpFrame .x86 s t

/-- R123: `BLOCK.X86` with the sixteen message bytes `bs`, for every parameter record: lanes 1, 2, 3 add the
not-yet-updated next lane, lane 4 adds the updated `h1`. The feed-forward is ADD_NEXT (log 18). -/
def Obligations.BlockX86MixesFourWords : Prop :=
  encode .blockX86 = [0x09#8] ∧
  ∀ (s : State) (bs : List Byte), bs.length = 16 →
    s.x86.ctl.blk.toNat < s.x86.ctl.len.toNat / 16 →
    MsgHolds s.x86.ctl (16 * s.x86.ctl.blk.toNat) bs →
    ∃ (x y k : Quad Word32) (t : State) (p : X86Params), p = s.params.x86 ∧
      (∀ i, ReadsAs (s.x86.h.get i) (x.get i)) ∧
      k = ⟨leWord 32 (slice bs 0 4), leWord 32 (slice bs 4 4), leWord 32 (slice bs 8 4), leWord 32 (slice bs 12 4)⟩ ∧
      exec .blockX86 s = .next t ∧ (∀ i, t.x86.h.get i = some (y.get i)) ∧
      y.v1 = (rotl (x.v1 ^^^ kmix86 p .one k.v1) p.hrot.v1 + x.v2) * 5#32 + p.add.v1 ∧
      y.v2 = (rotl (x.v2 ^^^ kmix86 p .two k.v2) p.hrot.v2 + x.v3) * 5#32 + p.add.v2 ∧
      y.v3 = (rotl (x.v3 ^^^ kmix86 p .three k.v3) p.hrot.v3 + x.v4) * 5#32 + p.add.v3 ∧
      y.v4 = (rotl (x.v4 ^^^ kmix86 p .four k.v4) p.hrot.v4 + y.v1) * 5#32 + p.add.v4 ∧
      OpFrame .x86 s t

/-- R124: `TAIL.X86` with the `r` tail bytes `bs`: lane `i` is touched exactly if `r > 4*(i-1)`. The key mix
is that of the block (log 18). -/
def Obligations.TailX86FoldsTheTail : Prop :=
  encode .tailX86 = [0x0A#8] ∧
  ∀ (s : State) (bs : List Byte), bs.length = s.x86.ctl.len.toNat % 16 →
    MsgHolds s.x86.ctl (16 * (s.x86.ctl.len.toNat / 16)) bs →
    ∃ (x : Quad Word32) (t : State), (∀ i, ReadsAs (s.x86.h.get i) (x.get i)) ∧ exec .tailX86 s = .next t ∧
      (∀ i : LaneIx, 4 * (i.num - 1) < bs.length → t.x86.h.get i = some (x.get i ^^^ kmix86 s.params.x86 i
        (leWord 32 (slice bs (4 * (i.num - 1)) (min 4 (bs.length - 4 * (i.num - 1))))))) ∧
      (∀ i : LaneIx, bs.length ≤ 4 * (i.num - 1) → t.x86.h.get i = s.x86.h.get i) ∧ OpFrame .x86 s t

/-- R125: `FINAL.X86`; and equal lanes 2, 3, 4 stay equal. The cross-add is SEQUENTIAL (log 18). -/
def Obligations.FinalX86CrossesAndAvalanches : Prop :=
  encode .finalX86 = [0x0B#8] ∧
  ∀ s : State, ∃ (x a b c y : Quad Word32) (t : State), (∀ i, ReadsAs (s.x86.h.get i) (x.get i)) ∧
    exec .finalX86 s = .next t ∧ (∀ i, a.get i = x.get i ^^^ s.x86.ctl.len) ∧
    b = cross86 .sequential a ∧ (∀ i, c.get i = fmix32 (b.get i)) ∧ y = cross86 .sequential c ∧
    (∀ i, t.x86.h.get i = some (y.get i)) ∧
    (x.v2 = x.v3 → x.v3 = x.v4 → y.v2 = y.v3 ∧ y.v3 = y.v4) ∧ OpFrame .x86 s t

/-- R126: `EMIT.X86`. -/
def Obligations.EmitX86WritesTheDigest : Prop :=
  encode .emitX86 = [0x0C#8] ∧
  ∀ s : State, ∃ (x : Quad Word32) (t : State), (∀ i, ReadsAs (s.x86.h.get i) (x.get i)) ∧
    exec .emitX86 s = .next t ∧ t.x86.digest = some ⟨x.v1, x.v2, x.v3, x.v4⟩ ∧ t.x86.ctl.done = true ∧
    (∀ i, t.x86.h.get i = none) ∧ OperandsKept s.x86.ctl t.x86.ctl ∧ OthersKept .x86 s t

/-- R130 (a), (b): the empty message under every parameter record (log 18). -/
def Obligations.Hash128x86OfTheEmptyMessage : Prop :=
  ∀ p : X86Params, hash128x86 p [] 0 = ⟨0, 0, 0, 0⟩ ∧
    hash128x86 p [] 1 = ⟨0x88c4adec#32, 0x54d201b9#32, 0x54d201b9#32, 0x54d201b9#32⟩

/-! ## Hash128x64 (42_hash128x64.md) -/

/-- R157, R158, R159: the helper functions of X64, and the rules' examples. The order of the constants in lane 2 is
the mirror image of lane 1 (log 18); one example is under REFERENCE (log 6). -/
def Obligations.X64HelpersAreTheSourceFormulas : Prop :=
  (∀ k : Word64, kmix64a k = rotl (k * 0x87c37b91114253d5#64) 31 * 0x4cf5ad432745937f#64) ∧
  (∀ (p : X64Params) (k : Word64), kmix64b p k = rotl (k * 0x4cf5ad432745937f#64) p.krot2 * 0x87c37b91114253d5#64) ∧
  (∀ p : X64Params, kmix64b p 0 = 0) ∧
  (∀ h a b c d : Word64, a = h ^^^ (h >>> 33) → b = a * 0xff51afd7ed558ccd#64 → c = b ^^^ (b >>> 33) →
    d = c * 0xc4ceb9fe1a85ec53#64 → fmix64 h = d ^^^ (d >>> 33)) ∧
  kmix64a 0 = 0 ∧ fmix64 0 = 0 ∧ kmix64a 1 = 0x34e09d0b6bdefe38#64 ∧
  kmix64b x64Reference 1 = 0x4e26f5539bb7c37e#64 ∧ fmix64 1 = 0xb456bcfc34c2cb2c#64 ∧
  fmix64 2 = 0x3abf2a20650683e7#64 ∧ fmix64 0xffffffffffffffff#64 = 0x64b5720b4b825f21#64

/-- R152: `SEED.X64`: zero-extended, never sign-extended. -/
def Obligations.SeedX64ZeroExtends : Prop :=
  encode .seedX64 = [0x10#8] ∧
  ∀ s : State, ∃ (w : Word64) (t : State), exec .seedX64 s = .next t ∧ w.toNat = s.x64.ctl.seed.toNat ∧
    t.x64.h.v1 = some w ∧ t.x64.h.v2 = some w ∧ OpFrame .x64 s t

/-- R153: `BLOCK.X64` with the sixteen message bytes `bs`, for every parameter record. The key mix of lane 2 is
the mirror image of lane 1 (log 18). -/
def Obligations.BlockX64MixesTwoWords : Prop :=
  encode .blockX64 = [0x11#8] ∧
  ∀ (s : State) (bs : List Byte), bs.length = 16 →
    s.x64.ctl.blk.toNat < s.x64.ctl.len.toNat / 16 →
    MsgHolds s.x64.ctl (16 * s.x64.ctl.blk.toNat) bs →
    ∃ (x1 x2 y1 y2 : Word64) (t : State), ReadsAs s.x64.h.v1 x1 ∧ ReadsAs s.x64.h.v2 x2 ∧
      exec .blockX64 s = .next t ∧ t.x64.h.v1 = some y1 ∧ t.x64.h.v2 = some y2 ∧
      y1 = (rotl (x1 ^^^ kmix64a (leWord 64 (slice bs 0 8))) 27 + x2) * 5#64 + 0x52dce729#64 ∧
      y2 = (rotl (x2 ^^^ kmix64b s.params.x64 (leWord 64 (slice bs 8 8))) s.params.x64.hrot2 + y1) * 5#64 +
        0x38495ab5#64 ∧
      OpFrame .x64 s t

/-- R154: `TAIL.X64` with the `r` tail bytes `bs`: `h2` if `r >= 9`, `h1` if `r >= 1` (log 18 for lane 2). -/
def Obligations.TailX64FoldsTheTail : Prop :=
  encode .tailX64 = [0x12#8] ∧
  ∀ (s : State) (bs : List Byte), bs.length = s.x64.ctl.len.toNat % 16 →
    MsgHolds s.x64.ctl (16 * (s.x64.ctl.len.toNat / 16)) bs →
    ∃ (x1 x2 : Word64) (t : State), ReadsAs s.x64.h.v1 x1 ∧ ReadsAs s.x64.h.v2 x2 ∧ exec .tailX64 s = .next t ∧
      (9 ≤ bs.length → t.x64.h.v2 = some (x2 ^^^ kmix64b s.params.x64 (leWord 64 (slice bs 8 7)))) ∧
      (bs.length ≤ 8 → t.x64.h.v2 = s.x64.h.v2) ∧
      (1 ≤ bs.length → t.x64.h.v1 = some (x1 ^^^ kmix64a (leWord 64 (slice bs 0 8)))) ∧
      (bs.length = 0 → t.x64.h.v1 = s.x64.h.v1) ∧ OpFrame .x64 s t

/-- R155: `FINAL.X64`, each statement seeing the one before it. -/
def Obligations.FinalX64CrossesAndAvalanches : Prop :=
  encode .finalX64 = [0x13#8] ∧
  ∀ s : State, ∃ (x1 x2 a1 a2 b1 b2 c1 c2 d1 d2 w : Word64) (t : State),
    ReadsAs s.x64.h.v1 x1 ∧ ReadsAs s.x64.h.v2 x2 ∧ exec .finalX64 s = .next t ∧
    w.toNat = s.x64.ctl.len.toNat ∧ a1 = x1 ^^^ w ∧ a2 = x2 ^^^ w ∧ b1 = a1 + a2 ∧ b2 = a2 + b1 ∧
    c1 = fmix64 b1 ∧ c2 = fmix64 b2 ∧ d1 = c1 + c2 ∧ d2 = c2 + d1 ∧
    t.x64.h.v1 = some d1 ∧ t.x64.h.v2 = some d2 ∧ OpFrame .x64 s t

/-- R156: `EMIT.X64`. -/
def Obligations.EmitX64WritesTheDigest : Prop :=
  encode .emitX64 = [0x14#8] ∧
  ∀ s : State, ∃ (x1 x2 : Word64) (t : State), ReadsAs s.x64.h.v1 x1 ∧ ReadsAs s.x64.h.v2 x2 ∧
    exec .emitX64 s = .next t ∧ t.x64.digest = some ⟨x1, x2⟩ ∧ t.x64.ctl.done = true ∧
    t.x64.h.v1 = none ∧ t.x64.h.v2 = none ∧ OperandsKept s.x64.ctl t.x64.ctl ∧ OthersKept .x64 s t

/-- R38: the 32-bit view of the X64 digest. -/
def Obligations.X64DigestSplitsLowHigh : Prop :=
  ∀ d : Duo Word64,
    (digestWords d).v1.toNat = d.v1.toNat % 2 ^ 32 ∧ (digestWords d).v2.toNat = d.v1.toNat / 2 ^ 32 ∧
    (digestWords d).v3.toNat = d.v2.toNat % 2 ^ 32 ∧ (digestWords d).v4.toNat = d.v2.toNat / 2 ^ 32

/-- R161 (a), (b): the empty message gives (0, 0), and no message of at most 8 bytes depends on an open parameter. -/
def Obligations.ShortX64DigestsNeedNoParameter : Prop :=
  (∀ p : X64Params, hash128x64 p [] 0 = ⟨0, 0⟩) ∧
  ∀ (p q : X64Params) (m : List Byte) (seed : Word32), m.length ≤ 8 → hash128x64 p m seed = hash128x64 q m seed

/-! ## The sequencer (43_sequencer_host.md) -/

/-- R182: after `SEED`. That `BLK` is 0 then in every state, also where it was not 0 before, is the model's reading of
R182 beside R32 (log 17). -/
def Obligations.SeedEntersTheBlockLoop : Prop :=
  ∀ (c : CoreId) (s : State), ∃ t, exec (instrOf c .seed) s = .next t ∧ (t.ctl c).blk = 0 ∧
    (0 < (s.ctl c).len.toNat / blockSize c → (t.ctl c).phase = 1) ∧
    ((s.ctl c).len.toNat / blockSize c = 0 → (t.ctl c).phase = 2)

/-- R183: after `BLOCK`; the new `BLK` decides. -/
def Obligations.BlockAdvancesBlk : Prop :=
  ∀ (c : CoreId) (s : State), (s.ctl c).blk.toNat < (s.ctl c).len.toNat / blockSize c →
    ∃ t, exec (instrOf c .block) s = .next t ∧ (t.ctl c).blk.toNat = (s.ctl c).blk.toNat + 1 ∧
      ((t.ctl c).blk.toNat < (s.ctl c).len.toNat / blockSize c → (t.ctl c).phase = 1) ∧
      ((t.ctl c).blk.toNat = (s.ctl c).len.toNat / blockSize c → (t.ctl c).phase = 2)

/-- R184, R185, R186: after `TAIL`, `FINAL` and `EMIT`; `BLK` is unchanged; without tail bytes `TAIL` changes no
lane. -/
def Obligations.LastThreePhasesFollowInOrder : Prop :=
  ∀ (c : CoreId) (s : State),
    (∃ t, exec (instrOf c .tail) s = .next t ∧ (t.ctl c).phase = 3 ∧ (t.ctl c).blk = (s.ctl c).blk ∧
      ((s.ctl c).len.toNat % blockSize c = 0 → t.lanes c = s.lanes c)) ∧
    (∃ t, exec (instrOf c .final) s = .next t ∧ (t.ctl c).phase = 4 ∧ (t.ctl c).blk = (s.ctl c).blk) ∧
    ∃ t, exec (instrOf c .emit) s = .next t ∧ (t.ctl c).phase = 7 ∧ (t.ctl c).blk = (s.ctl c).blk ∧
      (t.ctl c).done = true ∧ (t.digest c).isSome = true

/-- R180: an accepted `START`; the launch conditions are those of R232 and R203 (d) (log 12). -/
def Obligations.StartBeginsARun : Prop :=
  ∀ (c : CoreId) (s : State), (s.ctl c).phase = 7 → (s.ctl c).seedWritten = true → (s.ctl c).lenWritten = true →
    (s.ctl c).msg.length = (s.ctl c).len.toNat →
    ∃ t, hostAct (.start c) s = .next t ∧ (t.ctl c).done = false ∧ (t.ctl c).blk = 0 ∧ (t.ctl c).phase = 0 ∧
      OperandsKept (s.ctl c) (t.ctl c) ∧ t.lanes c = s.lanes c ∧ OthersKept c s t

/-- R187: a `START` while busy is ignored: no state changes. -/
def Obligations.StartWhileBusyIsIgnored : Prop :=
  ∀ (c : CoreId) (s : State), (s.ctl c).phase ≠ 7 → hostAct (.start c) s = .next s

/-- R28: the operand lock: writes while busy are dropped, writes while idle are taken and change nothing else but the
model's own bit that records the write (log 12), reads return the registers at any time and change nothing, and no step
of a core changes the operands. -/
def Obligations.OperandsAreLockedWhileBusy : Prop :=
  ∀ (c : CoreId) (s : State),
    ((s.ctl c).phase ≠ 7 → ∀ v, hostAct (.writeSeed c v) s = .next s ∧ hostAct (.writeLen c v) s = .next s) ∧
    ((s.ctl c).phase = 7 → ∀ v,
      hostAct (.writeSeed c v) s = .next (s.setCtl c { s.ctl c with seed := v, seedWritten := true }) ∧
      hostAct (.writeLen c v) s = .next (s.setCtl c { s.ctl c with len := v, lenWritten := true })) ∧
    hostRead c .seed s = .ok (.word (s.ctl c).seed) ∧ hostRead c .len s = .ok (.word (s.ctl c).len) ∧
    hostAct (.read c .seed) s = .next s ∧ hostAct (.read c .len) s = .next s ∧
    ∀ d t, coreTurn d s = .next t → OperandsKept (s.ctl c) (t.ctl c)

/-- R29: in every state of the invariant `DIGEST` has no value and its read is refused while `DONE` = 0; while
`DONE` = 1 a read returns the digest and changes nothing, so any number of reads do; and an accepted `START` takes
the value away, the model's reading of R29 beside R180 (log 14). -/
def Obligations.DigestIsValidExactlyWhileDone : Prop :=
  ∀ (c : CoreId) (s : State), MachineInv s →
    ((s.ctl c).done = false → s.digest c = none ∧ hostRead c .digest s = .error (.digestHasNoValue c) ∧
      hostAct (.read c .digest) s = .refused (.digestHasNoValue c)) ∧
    ((s.ctl c).done = true → ∃ d, s.digest c = some d ∧ hostRead c .digest s = .ok (.digest d) ∧
      hostAct (.read c .digest) s = .next s) ∧
    ∀ t, (s.ctl c).phase = 7 → hostAct (.start c) s = .next t → t.digest c = none

/-- R203 (c), (d), R232, U3 to U6: what the host interface refuses (log 12, log 13). -/
def Obligations.MeaninglessLaunchesAreRefused : Prop :=
  ∀ (c : CoreId) (s : State),
    ((s.ctl c).phase = 7 → (s.ctl c).seedWritten = false ∨ (s.ctl c).lenWritten = false →
      hostAct (.start c) s = .refused (.operandsNotWritten c)) ∧
    ((s.ctl c).phase = 7 → (s.ctl c).seedWritten = true → (s.ctl c).lenWritten = true →
      (s.ctl c).msg.length ≠ (s.ctl c).len.toNat → hostAct (.start c) s = .refused (.lengthMismatch c)) ∧
    (∀ bytes : List Byte, (s.ctl c).phase = 7 → 2 ^ 32 ≤ bytes.length →
      hostAct (.supply c bytes) s = .refused (.messageTooLong c)) ∧
    ∀ bytes : List Byte, (s.ctl c).phase ≠ 7 → hostAct (.supply c bytes) s = .refused (.messageInFlight c)

/-- R60, R194: supplying a message makes `MSG[i]` its byte `i`, leaves no byte beyond it, and touches nothing else. -/
def Obligations.SuppliedMessageIsRead : Prop :=
  ∀ (c : CoreId) (s : State) (bytes : List Byte), (s.ctl c).phase = 7 → bytes.length < 2 ^ 32 →
    ∃ t, hostAct (.supply c bytes) s = .next t ∧ (∀ i, Memory.read (t.ctl c).msg i = bytes[i]?) ∧
      Memory.wf (t.ctl c).msg = true ∧ t = s.withMsg c (t.ctl c).msg

/-! ## Reset (10_state.md R39, 70_reset_and_hazards.md R230) -/

/-- R39, R230: reset of a core at any moment: `PHASE` = 7, `DONE` = 0, lanes and `DIGEST` without value, the message
space not affected, the other cores not either. Of `SEED`, `LEN` and `BLK` nothing is said: they are unspecified. The model's
own bits say that `SEED` and `LEN` are not written (log 12), so that a `START` before both are written since the reset
is refused (R232, U6). Reset "applied to one core (or to all)": the reset of all is the reset of each. -/
def Obligations.ResetReachesTheResetState : Prop :=
  ∀ s : State,
    (∀ c : CoreId, ∃ t, hostAct (.reset c) s = .next t ∧ (t.ctl c).phase = 7 ∧ (t.ctl c).done = false ∧
      (∀ o ∈ t.lanes c, o = none) ∧ t.digest c = none ∧ (t.ctl c).msg = (s.ctl c).msg ∧
      (t.ctl c).seedWritten = false ∧ (t.ctl c).lenWritten = false ∧
      hostAct (.start c) t = .refused (.operandsNotWritten c) ∧ OthersKept c s t) ∧
    ∃ t, hostAct .resetAll s = .next t ∧ t.params = s.params ∧ t.schedule = s.schedule ∧
      ∀ c, ∃ u, hostAct (.reset c) s = .next u ∧ SameCore c u t

/-- R39: the machine at `State.reset`: every core idle, `DONE` = 0, lanes and `DIGEST` without value; and the invariant
holds there. Nothing more is said of `SEED`, `LEN`, `BLK` and `MSG`: what they hold there is the model's choice (log 1,
log 26). -/
def Obligations.ResetStateMeetsTheInvariant : Prop :=
  MachineInv State.reset ∧ ∀ c, (State.reset.ctl c).phase = 7 ∧ (State.reset.ctl c).done = false ∧
    State.reset.digest c = none ∧ ∀ o ∈ State.reset.lanes c, o = none

/-! ## Whole-machine rules -/

/-- R24, R29, R31, R32, R34, R60: every step, of a core or of the host, keeps the invariant. -/
def Obligations.StepKeepsTheInvariant : Prop :=
  ∀ s t : State, MachineInv s → step s = .next t → MachineInv t

/-- R200, R207: every operation completes, a `BLOCK` whenever there is a block to process (R103). -/
def Obligations.EveryOperationCompletes : Prop :=
  ∀ (i : Instr) (s : State),
    (i.stem = .block → (s.ctl i.core).blk.toNat < (s.ctl i.core).len.toNat / blockSize i.core) →
    ∃ t, exec i s = .next t

/-- Where there is no block left, a `BLOCK` handed to the machine stops: it would read a byte that does not exist
(R60, R66). No run gets there; the stop is the model's (log 8). -/
def Obligations.BlockPastTheMessageStops : Prop :=
  ∀ (c : CoreId) (s : State), (s.ctl c).len.toNat / blockSize c ≤ (s.ctl c).blk.toNat →
    exec (instrOf c .block) s = .fault (.beyondMessage c)

/-- R181, R189: in every state of the invariant a busy core can step, and an idle core has no step. In phases 5 and 6,
which no state of the invariant has, the core is stuck (U8): no step is enabled and `START` does nothing. That a turn
without a step is a named fault is the model's (log 11). -/
def Obligations.BusyCoresCanAlwaysStep : Prop :=
  (∀ (c : CoreId) (s : State), MachineInv s →
    ((s.ctl c).phase ≠ 7 → ∃ t, coreTurn c s = .next t) ∧
    ((s.ctl c).phase = 7 → coreTurn c s = .fault (.idle c))) ∧
  ∀ (c : CoreId) (s : State), (s.ctl c).phase = 5 ∨ (s.ctl c).phase = 6 →
    coreTurn c s = .fault (.stuckPhase c) ∧ hostAct (.start c) s = .next s

/-- R32: during a run `BLK` is at most `nblocks`, which is below 2^30 (H32) or 2^28, so `BLK + 1` never wraps. -/
def Obligations.BlkNeverWraps : Prop :=
  ∀ (c : CoreId) (s : State), MachineInv s → (s.ctl c).phase ≠ 7 →
    (s.ctl c).blk.toNat ≤ (s.ctl c).len.toNat / blockSize c ∧
    (s.ctl c).len.toNat / blockSize c ≤ (if c = .h32 then 2 ^ 30 - 1 else 2 ^ 28 - 1) ∧
    ((s.ctl c).blk + 1).toNat = (s.ctl c).blk.toNat + 1

/-- R33: `DONE` is 0 after reset and after an accepted `START`, 1 after `EMIT`; nothing else writes it. R20, R33, R194:
at any time the host reads `DONE` and `PHASE` as they are, and reading `DONE`, `PHASE` or `DIGEST` has no side effect
(log 25). -/
def Obligations.DoneIsWrittenByStartEmitAndReset : Prop :=
  (∀ (c : CoreId) (s t : State), hostAct (.reset c) s = .next t ∨
      ((s.ctl c).phase = 7 ∧ hostAct (.start c) s = .next t) → (t.ctl c).done = false) ∧
  (∀ (c : CoreId) (s t : State), exec (instrOf c .emit) s = .next t → (t.ctl c).done = true) ∧
  (∀ (c : CoreId) (s t : State), step s = .next t → (t.ctl c).done ≠ (s.ctl c).done →
    turnOf s = some (.host (.start c)) ∨ turnOf s = some (.host (.reset c)) ∨ turnOf s = some (.host .resetAll) ∨
    (turnOf s = some (.core c) ∧ (s.ctl c).phase = 4)) ∧
  ∀ (c : CoreId) (s t : State), hostRead c .done s = .ok (.flag (s.ctl c).done) ∧
    hostRead c .phase s = .ok (.phase (s.ctl c).phase) ∧
    hostAct (.read c .done) s = .next s ∧ hostAct (.read c .phase) s = .next s ∧
    (hostAct (.read c .digest) s = .next t → t = s)

/-- R28, R62, R9: over every step, `SEED`, `LEN` and `MSG` of a core change only by the host's own action on that core
while it is idle, or (`SEED`, `LEN`) by reset; the parameters never change. That `MSG` changes only while the core is
idle is the host's duty in R71 and R240, and no guarantee of the core: the model refuses the host action that breaks it
(log 13). -/
def Obligations.OnlyTheHostChangesOperands : Prop :=
  ∀ (c : CoreId) (s t : State), step s = .next t → t.params = s.params ∧
    ((t.ctl c).msg ≠ (s.ctl c).msg → (s.ctl c).phase = 7 ∧ ∃ bytes, turnOf s = some (.host (.supply c bytes))) ∧
    ((t.ctl c).seed ≠ (s.ctl c).seed → turnOf s = some (.host (.reset c)) ∨ turnOf s = some (.host .resetAll) ∨
      ((s.ctl c).phase = 7 ∧ turnOf s = some (.host (.writeSeed c (t.ctl c).seed)))) ∧
    ((t.ctl c).len ≠ (s.ctl c).len → turnOf s = some (.host (.reset c)) ∨ turnOf s = some (.host .resetAll) ∨
      ((s.ctl c).phase = 7 ∧ turnOf s = some (.host (.writeLen c (t.ctl c).len))))

/-- R2, R42: an operation reads and writes nothing but its own core: it leaves the others as they are, and from two
states that agree on its core and the parameters it does the same to that core. -/
def Obligations.CoresAreIndependent : Prop :=
  (∀ (i : Instr) (s t : State), exec i s = .next t → OthersKept i.core s t) ∧
  ∀ (c : CoreId) (s u t : State), SameCore c s u → u.params = s.params → coreTurn c s = .next t →
    ∃ v, coreTurn c u = .next v ∧ SameCore c t v

/-- R196: the steps of different cores may be taken in either order. -/
def Obligations.StepsOfDifferentCoresCommute : Prop :=
  ∀ (c d : CoreId) (s t u : State), c ≠ d → coreTurn c s = .next t → coreTurn d s = .next u →
    ∃ v, coreTurn d t = .next v ∧ coreTurn c u = .next v

/-! ## Runs (43_sequencer_host.md R188 to R193) -/

/-- R188, R189: from an accepted `START` a run takes exactly `nblocks + 4` steps: the core is busy before each of them
and the run has ended after the last. -/
def Obligations.RunTakesNblocksPlusFourSteps : Prop :=
  ∀ (c : CoreId) (s : State) (rest : List Turn), MachineInv s → (s.ctl c).phase = 7 →
    (s.ctl c).seedWritten = true → (s.ctl c).lenWritten = true → (s.ctl c).msg.length = (s.ctl c).len.toNat →
    s.schedule = .host (.start c) :: List.replicate ((s.ctl c).len.toNat / blockSize c + 4) (.core c) ++ rest →
    (∀ j, j < (s.ctl c).len.toNat / blockSize c + 4 →
      ∃ u, Sys2Proof.core.run (j + 1) s = .next u ∧ (State.ctl u c).phase ≠ 7 ∧
        (State.ctl u c).done = false) ∧
    ∃ t, Sys2Proof.core.run ((s.ctl c).len.toNat / blockSize c + 5) s = .next t ∧
      (State.ctl t c).phase = 7 ∧ (State.ctl t c).done = true

/-- R190: run and function agree, for each core and every parameter record: with `SEED = seed`, `LEN` the length of
the message `m`, after `START` and `floor(L/BS) + 4` steps the run has ended and `DIGEST` is the function's value.
Nothing is assumed of the lanes, of `BLK`, of the old `DIGEST` and `DONE`, or of the other cores. -/
def Obligations.RunComputesTheFunction : Prop :=
  ∀ (c : CoreId) (s : State) (m : List Byte) (seed : Word32) (rest : List Turn), m.length < 2 ^ 32 →
    (s.ctl c).phase = 7 → (s.ctl c).seedWritten = true → (s.ctl c).lenWritten = true →
    (s.ctl c).seed = seed → (s.ctl c).len.toNat = m.length → (s.ctl c).msg = Memory.ofMessage m →
    s.schedule = .host (.start c) :: List.replicate (m.length / blockSize c + 4) (.core c) ++ rest →
    ∃ t : State, Sys2Proof.core.run (m.length / blockSize c + 5) s = .next t ∧
      t.schedule = rest ∧ (t.ctl c).phase = 7 ∧ (t.ctl c).done = true ∧ (∀ o ∈ t.lanes c, o = none) ∧
      t.digest c = some (functionOf s.params c m seed) ∧ OperandsKept (s.ctl c) (t.ctl c) ∧
      (∀ d, d ≠ c → SameCore d s t)

/-- R191, R192, R193: a hash call from any idle core: the host writes `SEED` and `LEN`, supplies the message and
pulses `START`; the core then issues exactly the words of the expansion; the host sees `DONE` = 1 and reads the
function's value. -/
def Obligations.HashCallsExpandAndReturnTheDigest : Prop :=
  ∀ (c : CoreId) (s : State) (m : List Byte) (seed : Word32) (rest : List Turn), m.length < 2 ^ 32 →
    (s.ctl c).phase = 7 → s.schedule = hashCall c m seed ++ rest →
    ∃ u t : State, Sys2Proof.core.run 4 s = .next u ∧
      issuedWords c (m.length / blockSize c + 4) u =
        (match c with
          | .h32 => [0x00#8] ++ List.replicate (m.length / 4) 0x01#8 ++ [0x02#8, 0x03#8, 0x04#8]
          | .x86 => [0x08#8] ++ List.replicate (m.length / 16) 0x09#8 ++ [0x0A#8, 0x0B#8, 0x0C#8]
          | .x64 => [0x10#8] ++ List.replicate (m.length / 16) 0x11#8 ++ [0x12#8, 0x13#8, 0x14#8]) ∧
      Sys2Proof.core.run (hashCall c m seed).length s = .next t ∧ t.schedule = rest ∧
      hostRead c .done t = .ok (.flag true) ∧
      hostRead c .digest t = .ok (.digest (functionOf s.params c m seed))

end
end

