-- ==== Sys2Proof/Laws/State.lean ====
section
/-! SUPPORT. One lemma for each field and each update of the state, so that no proof unfolds a record update. -/

namespace Sys2Proof

/-! ## Quadruples -/

@[simp] theorem Quad.get_put_same {α : Type} (q : Quad α) (i : LaneIx) (x : α) : (q.put i x).get i = x := by
  cases i <;> rfl

theorem Quad.get_put_ne {α : Type} (q : Quad α) {i j : LaneIx} (x : α) (h : j ≠ i) :
    (q.put i x).get j = q.get j := by
  cases i <;> cases j <;> first | rfl | exact absurd rfl h

@[simp] theorem Quad.get_map {α β : Type} (f : α → β) (q : Quad α) (i : LaneIx) : (q.map f).get i = f (q.get i) := by
  cases i <;> rfl

@[simp] theorem Quad.get_all {α : Type} (x : α) (i : LaneIx) : (Quad.all x).get i = x := by
  cases i <;> rfl

theorem Quad.ext_get {α : Type} {p q : Quad α} (h : ∀ i, p.get i = q.get i) : p = q := by
  cases p; cases q
  exact (Quad.mk.injEq ..).mpr ⟨h .one, h .two, h .three, h .four⟩

namespace Machine

/-! ## Replacing the control part of a core -/

@[simp] theorem State.ctl_setCtl (s : State) (c : CoreId) (k : Control) : (s.setCtl c k).ctl c = k := by
  cases c <;> rfl

theorem State.ctl_setCtl_ne (s : State) {c d : CoreId} (k : Control) (h : d ≠ c) :
    (s.setCtl c k).ctl d = s.ctl d := by
  cases c <;> cases d <;> first | rfl | exact absurd rfl h

@[simp] theorem State.setCtl_ctl (s : State) (c : CoreId) : s.setCtl c (s.ctl c) = s := by
  cases c <;> rfl

@[simp] theorem State.setCtl_setCtl (s : State) (c : CoreId) (k k' : Control) :
    (s.setCtl c k).setCtl c k' = s.setCtl c k' := by
  cases c <;> rfl

@[simp] theorem State.params_setCtl (s : State) (c : CoreId) (k : Control) : (s.setCtl c k).params = s.params := by
  cases c <;> rfl

@[simp] theorem State.schedule_setCtl (s : State) (c : CoreId) (k : Control) :
    (s.setCtl c k).schedule = s.schedule := by
  cases c <;> rfl

@[simp] theorem State.digest_setCtl (s : State) (c d : CoreId) (k : Control) :
    (s.setCtl c k).digest d = s.digest d := by
  cases c <;> cases d <;> rfl

@[simp] theorem State.lanes_setCtl (s : State) (c d : CoreId) (k : Control) :
    (s.setCtl c k).lanes d = s.lanes d := by
  cases c <;> cases d <;> rfl

/-! ## Taking values away -/

@[simp] theorem State.ctl_dropDigest (s : State) (c d : CoreId) : (s.dropDigest c).ctl d = s.ctl d := by
  cases c <;> cases d <;> rfl

@[simp] theorem State.ctl_dropLanes (s : State) (c d : CoreId) : (s.dropLanes c).ctl d = s.ctl d := by
  cases c <;> cases d <;> rfl

@[simp] theorem State.digest_dropDigest (s : State) (c : CoreId) : (s.dropDigest c).digest c = none := by
  cases c <;> rfl

theorem State.digest_dropDigest_ne (s : State) {c d : CoreId} (h : d ≠ c) :
    (s.dropDigest c).digest d = s.digest d := by
  cases c <;> cases d <;> first | rfl | exact absurd rfl h

@[simp] theorem State.digest_dropLanes (s : State) (c d : CoreId) : (s.dropLanes c).digest d = s.digest d := by
  cases c <;> cases d <;> rfl

@[simp] theorem State.lanes_dropDigest (s : State) (c d : CoreId) : (s.dropDigest c).lanes d = s.lanes d := by
  cases c <;> cases d <;> rfl

theorem State.lanes_dropLanes (s : State) (c : CoreId) : ∀ o ∈ (s.dropLanes c).lanes c, o = none := by
  cases c <;> simp [State.dropLanes, State.lanes, Quad.all]

theorem State.lanes_dropLanes_ne (s : State) {c d : CoreId} (h : d ≠ c) : (s.dropLanes c).lanes d = s.lanes d := by
  cases c <;> cases d <;> first | rfl | exact absurd rfl h

@[simp] theorem State.params_dropDigest (s : State) (c : CoreId) : (s.dropDigest c).params = s.params := by
  cases c <;> rfl

@[simp] theorem State.params_dropLanes (s : State) (c : CoreId) : (s.dropLanes c).params = s.params := by
  cases c <;> rfl

@[simp] theorem State.schedule_dropDigest (s : State) (c : CoreId) : (s.dropDigest c).schedule = s.schedule := by
  cases c <;> rfl

@[simp] theorem State.schedule_dropLanes (s : State) (c : CoreId) : (s.dropLanes c).schedule = s.schedule := by
  cases c <;> rfl

/-! ## The schedule -/

@[simp] theorem State.ctl_withSchedule (s : State) (l : List Turn) (c : CoreId) :
    State.ctl { s with schedule := l } c = s.ctl c := by
  cases c <;> rfl

@[simp] theorem State.digest_withSchedule (s : State) (l : List Turn) (c : CoreId) :
    State.digest { s with schedule := l } c = s.digest c := by
  cases c <;> rfl

@[simp] theorem State.lanes_withSchedule (s : State) (l : List Turn) (c : CoreId) :
    State.lanes { s with schedule := l } c = s.lanes c := by
  cases c <;> rfl

/-! ## Control updates -/

section
variable (k : Control) (bs : Nat) (v : Bool)

@[simp] theorem Control.draw_seed : k.draw.seed = k.seed := rfl
@[simp] theorem Control.draw_len : k.draw.len = k.len := rfl
@[simp] theorem Control.draw_phase : k.draw.phase = k.phase := rfl
@[simp] theorem Control.draw_blk : k.draw.blk = k.blk := rfl
@[simp] theorem Control.draw_done : k.draw.done = k.done := rfl
@[simp] theorem Control.draw_msg : k.draw.msg = k.msg := rfl
@[simp] theorem Control.draw_seedWritten : k.draw.seedWritten = k.seedWritten := rfl
@[simp] theorem Control.draw_lenWritten : k.draw.lenWritten = k.lenWritten := rfl
@[simp] theorem Control.draw_free : k.draw.free = k.free + 1 := rfl

@[simp] theorem Control.setDone_seed : (k.setDone v).seed = k.seed := rfl
@[simp] theorem Control.setDone_len : (k.setDone v).len = k.len := rfl
@[simp] theorem Control.setDone_phase : (k.setDone v).phase = k.phase := rfl
@[simp] theorem Control.setDone_blk : (k.setDone v).blk = k.blk := rfl
@[simp] theorem Control.setDone_done : (k.setDone v).done = v := rfl
@[simp] theorem Control.setDone_msg : (k.setDone v).msg = k.msg := rfl
@[simp] theorem Control.setDone_seedWritten : (k.setDone v).seedWritten = k.seedWritten := rfl
@[simp] theorem Control.setDone_lenWritten : (k.setDone v).lenWritten = k.lenWritten := rfl
@[simp] theorem Control.setDone_free : (k.setDone v).free = k.free := rfl

@[simp] theorem Control.afterSeed_seed : (k.afterSeed bs).seed = k.seed := rfl
@[simp] theorem Control.afterSeed_len : (k.afterSeed bs).len = k.len := rfl
@[simp] theorem Control.afterSeed_phase :
    (k.afterSeed bs).phase = if nblocks bs k.len > 0 then 1 else 2 := rfl
@[simp] theorem Control.afterSeed_blk : (k.afterSeed bs).blk = 0 := rfl
@[simp] theorem Control.afterSeed_done : (k.afterSeed bs).done = k.done := rfl
@[simp] theorem Control.afterSeed_msg : (k.afterSeed bs).msg = k.msg := rfl
@[simp] theorem Control.afterSeed_seedWritten : (k.afterSeed bs).seedWritten = k.seedWritten := rfl
@[simp] theorem Control.afterSeed_lenWritten : (k.afterSeed bs).lenWritten = k.lenWritten := rfl
@[simp] theorem Control.afterSeed_free : (k.afterSeed bs).free = k.free := rfl

@[simp] theorem Control.afterBlock_seed : (k.afterBlock bs).seed = k.seed := rfl
@[simp] theorem Control.afterBlock_len : (k.afterBlock bs).len = k.len := rfl
@[simp] theorem Control.afterBlock_phase :
    (k.afterBlock bs).phase = if (k.blk + 1).toNat < nblocks bs k.len then 1 else 2 := rfl
@[simp] theorem Control.afterBlock_blk : (k.afterBlock bs).blk = k.blk + 1 := rfl
@[simp] theorem Control.afterBlock_done : (k.afterBlock bs).done = k.done := rfl
@[simp] theorem Control.afterBlock_msg : (k.afterBlock bs).msg = k.msg := rfl
@[simp] theorem Control.afterBlock_seedWritten : (k.afterBlock bs).seedWritten = k.seedWritten := rfl
@[simp] theorem Control.afterBlock_lenWritten : (k.afterBlock bs).lenWritten = k.lenWritten := rfl
@[simp] theorem Control.afterBlock_free : (k.afterBlock bs).free = k.free := rfl

@[simp] theorem Control.afterTail_seed : k.afterTail.seed = k.seed := rfl
@[simp] theorem Control.afterTail_len : k.afterTail.len = k.len := rfl
@[simp] theorem Control.afterTail_phase : k.afterTail.phase = 3 := rfl
@[simp] theorem Control.afterTail_blk : k.afterTail.blk = k.blk := rfl
@[simp] theorem Control.afterTail_done : k.afterTail.done = k.done := rfl
@[simp] theorem Control.afterTail_msg : k.afterTail.msg = k.msg := rfl
@[simp] theorem Control.afterTail_seedWritten : k.afterTail.seedWritten = k.seedWritten := rfl
@[simp] theorem Control.afterTail_lenWritten : k.afterTail.lenWritten = k.lenWritten := rfl
@[simp] theorem Control.afterTail_free : k.afterTail.free = k.free := rfl

@[simp] theorem Control.afterFinal_seed : k.afterFinal.seed = k.seed := rfl
@[simp] theorem Control.afterFinal_len : k.afterFinal.len = k.len := rfl
@[simp] theorem Control.afterFinal_phase : k.afterFinal.phase = 4 := rfl
@[simp] theorem Control.afterFinal_blk : k.afterFinal.blk = k.blk := rfl
@[simp] theorem Control.afterFinal_done : k.afterFinal.done = k.done := rfl
@[simp] theorem Control.afterFinal_msg : k.afterFinal.msg = k.msg := rfl
@[simp] theorem Control.afterFinal_seedWritten : k.afterFinal.seedWritten = k.seedWritten := rfl
@[simp] theorem Control.afterFinal_lenWritten : k.afterFinal.lenWritten = k.lenWritten := rfl
@[simp] theorem Control.afterFinal_free : k.afterFinal.free = k.free := rfl

@[simp] theorem Control.afterEmit_seed : k.afterEmit.seed = k.seed := rfl
@[simp] theorem Control.afterEmit_len : k.afterEmit.len = k.len := rfl
@[simp] theorem Control.afterEmit_phase : k.afterEmit.phase = 7 := rfl
@[simp] theorem Control.afterEmit_blk : k.afterEmit.blk = k.blk := rfl
@[simp] theorem Control.afterEmit_done : k.afterEmit.done = k.done := rfl
@[simp] theorem Control.afterEmit_msg : k.afterEmit.msg = k.msg := rfl
@[simp] theorem Control.afterEmit_seedWritten : k.afterEmit.seedWritten = k.seedWritten := rfl
@[simp] theorem Control.afterEmit_lenWritten : k.afterEmit.lenWritten = k.lenWritten := rfl
@[simp] theorem Control.afterEmit_free : k.afterEmit.free = k.free := rfl

end

theorem Control.busy_iff (k : Control) : k.busy = true ↔ k.phase ≠ 7 := by
  simp [Control.busy, idlePhase]

theorem Control.not_busy_iff (k : Control) : k.busy = false ↔ k.phase = 7 := by
  simp [Control.busy, idlePhase]

end Machine

end Sys2Proof
end

