-- ==== Sys2Proof/Laws/Memory.lean ====
section
/-! SUPPORT. The message space (20_memory.md): what a supplied message reads as, the canonical form, and reads. -/

namespace Sys2Proof.Machine

/-! ## The cells of a byte sequence -/

theorem Memory.read_cellsFrom (bs : List Byte) (n i : Nat) :
    Memory.read (Memory.cellsFrom n bs) i = if n ≤ i then bs[i - n]? else none := by
  induction bs generalizing n with
  | nil => simp [Memory.cellsFrom, Memory.read]
  | cons b bs ih =>
    simp only [Memory.cellsFrom, Memory.read, ih]
    rcases Nat.lt_trichotomy n i with h | h | h
    · have : i - n = i - (n + 1) + 1 := by omega
      simp [Nat.ne_of_lt h, Nat.le_of_lt h, Nat.succ_le_of_lt h, this]
    · simp [h]
    · have h1 : ¬ n + 1 ≤ i := by omega
      have h2 : ¬ n ≤ i := by omega
      have h3 : n ≠ i := by omega
      simp [h1, h2, h3]

/-- `MSG[i]` of a supplied message is its byte `i`, and there is none beyond it (R60). -/
@[simp] theorem Memory.read_ofMessage (bs : List Byte) (i : Nat) :
    Memory.read (Memory.ofMessage bs) i = bs[i]? := by
  simp [Memory.ofMessage, Memory.read_cellsFrom]

theorem Memory.length_cellsFrom (bs : List Byte) (n : Nat) : (Memory.cellsFrom n bs).length = bs.length := by
  induction bs generalizing n with
  | nil => rfl
  | cons b bs ih => simp [Memory.cellsFrom, ih]

@[simp] theorem Memory.length_ofMessage (bs : List Byte) : (Memory.ofMessage bs).length = bs.length :=
  Memory.length_cellsFrom bs 0

theorem Memory.denseFrom_cellsFrom (bs : List Byte) (n : Nat) : Memory.denseFrom n (Memory.cellsFrom n bs) = true := by
  induction bs generalizing n with
  | nil => rfl
  | cons b bs ih => simp [Memory.cellsFrom, Memory.denseFrom, ih]

/-- Supplying a message gives the cells of one byte sequence. -/
@[simp] theorem Memory.isMessage_ofMessage (bs : List Byte) : Memory.isMessage (Memory.ofMessage bs) = true :=
  Memory.denseFrom_cellsFrom bs 0

theorem Memory.risingFrom_of_denseFrom {m : Memory} {n : Nat} (h : Memory.denseFrom n m = true) :
    Memory.risingFrom n m = true := by
  induction m generalizing n with
  | nil => rfl
  | cons x m ih =>
    obtain ⟨a, b⟩ := x
    simp only [Memory.denseFrom, Bool.and_eq_true, decide_eq_true_eq] at h
    obtain ⟨rfl, h⟩ := h
    simp [Memory.risingFrom, ih h]

/-- The cells of a byte sequence are in the canonical form. -/
theorem Memory.wf_of_isMessage {m : Memory} (h : Memory.isMessage m = true) : Memory.wf m = true :=
  Memory.risingFrom_of_denseFrom h

/-- Supplying a message keeps the canonical form; no other operation writes a message space. -/
@[simp] theorem Memory.wf_ofMessage (bs : List Byte) : Memory.wf (Memory.ofMessage bs) = true :=
  Memory.wf_of_isMessage (Memory.isMessage_ofMessage bs)

theorem Memory.reset_wf (c : CoreId) : Memory.wf (State.reset.ctl c).msg = true := by
  cases c <;> rfl

/-! ## Reads of several bytes -/

@[simp] theorem length_messageBytes (c : CoreId) (k : Control) (off n : Nat) :
    (messageBytes c k off n).length = n := by
  simp [messageBytes]

/-- Where the message holds `bs`, reading its offsets gives `bs`. -/
theorem messageBytes_eq {c : CoreId} {k : Control} {off : Nat} {bs : List Byte}
    (h : ∀ j b, bs[j]? = some b → Memory.read k.msg (off + j) = some b) :
    messageBytes c k off bs.length = bs := by
  apply List.ext_getElem? fun j => ?_
  rcases Nat.lt_or_ge j bs.length with hj | hj
  · have := h j bs[j] (List.getElem?_eq_getElem hj)
    simp [messageBytes, hj, messageByte, this]
  · simp [messageBytes, hj]

/-- Two control parts that agree on the bytes below `LEN` and on the free values read the same there. -/
theorem messageBytes_congr {c : CoreId} {k k' : Control} {off n : Nat} (hf : k'.free = k.free)
    (h : ∀ a, off ≤ a → a < off + n → Memory.read k'.msg a = Memory.read k.msg a) :
    messageBytes c k' off n = messageBytes c k off n := by
  simp only [messageBytes]
  apply List.map_congr_left
  intro j hj
  have hj := List.mem_range.mp hj
  simp [messageByte, hf, h (off + j) (by omega) (by omega)]

/-- The tail bytes are `r` in number. -/
@[simp] theorem length_tailBytes (c : CoreId) (k : Control) :
    (tailBytes c k).length = k.len.toNat % blockSize c := by
  simp [tailBytes, tailLen]

/-- The tail bytes lie below `LEN` (R66). -/
theorem tail_below_len (bs : Nat) (len : Word32) : bs * nblocks bs len + tailLen bs len = len.toNat := by
  simp [nblocks, tailLen, Nat.div_add_mod]

theorem blockSize_pos (c : CoreId) : 0 < blockSize c := by
  cases c <;> decide

/-- A block exists exactly when its index is below `nblocks` (R103: "so all four bytes exist"). -/
theorem inMessage_block_iff (k : Control) {bs : Nat} (h : 0 < bs) :
    inMessage k (bs * k.blk.toNat) bs = true ↔ k.blk.toNat < nblocks bs k.len := by
  simp only [inMessage, nblocks, decide_eq_true_eq, Nat.lt_iff_add_one_le, Nat.le_div_iff_mul_le h]
  constructor <;> intro h' <;> nlinarith

end Sys2Proof.Machine
end

