-- ==== Sys2Proof/Laws/Words.lean ====
section
/-! SUPPORT. Little-endian assembly and rotation: the small lemmas of `le`, `leWord` and `rotl`
(00_scope.md R12, R13). -/

namespace Sys2Proof.Machine

@[simp] theorem le_nil : le [] = 0 := rfl

@[simp] theorem le_cons (b : Byte) (bs : List Byte) : le (b :: bs) = b.toNat + 2 ^ 8 * le bs := rfl

/-- The number of `n` bytes is below `2^(8n)`. -/
theorem le_lt (bs : List Byte) : le bs < 2 ^ (8 * bs.length) := by
  induction bs with
  | nil => simp
  | cons b bs ih =>
    have hb := b.isLt
    have : 2 ^ (8 * (b :: bs).length) = 2 ^ 8 * 2 ^ (8 * bs.length) := by
      rw [← Nat.pow_add]; congr 1; simp; omega
    simp only [le_cons, this]
    omega

/-- A word wide enough for its bytes is their number. -/
theorem toNat_leWord {w : Nat} {bs : List Byte} (h : 8 * bs.length ≤ w) : (leWord w bs).toNat = le bs := by
  simp only [leWord, BitVec.toNat_ofNat]
  exact Nat.mod_eq_of_lt (Nat.lt_of_lt_of_le (le_lt bs) (Nat.pow_le_pow_right (by decide) h))

@[simp] theorem leWord_nil (w : Nat) : leWord w [] = 0 := by
  simp [leWord]

/-- Rotating 0 gives 0. -/
@[simp] theorem rotl_zero {w : Nat} (r : Nat) : rotl (0#w) r = 0#w := by
  simp [rotl]

/-- The one admitted feed-forward form: add the next lane (R121, R131). -/
theorem feed86_eq (f : X86Feed) (x next : Word32) : feed86 f x next = x + next := by
  cases f; rfl

/-- The one admitted cross-add form (R128, R131). -/
theorem cross86_eq (f : X86Cross) (h : Quad Word32) : cross86 f h = cross86 .sequential h := by
  cases f; rfl

theorem kmix32_zero : kmix32 0 = 0 := by
  simp [kmix32]

theorem kmix86_zero (p : X86Params) (i : LaneIx) : kmix86 p i 0 = 0 := by
  simp [kmix86]

theorem kmix64a_zero : kmix64a 0 = 0 := by
  simp [kmix64a]

theorem kmix64b_zero (p : X64Params) : kmix64b p 0 = 0 := by
  simp [kmix64b]

end Sys2Proof.Machine
end

