-- ==== Sys2Proof/Laws/Exec.lean ====
section
/-! SUPPORT. What an operation can do, said once: how the control part of its core moves, and that the state is
otherwise as before but for the core's own lanes and digest. -/

namespace Sys2Proof.Machine

/-- The control part after an operation (R182 to R186), with the next free values (log 5). -/
def ctlAfter (st : Stem) (bs : Nat) (k : Control) : Control :=
  match st with
  | .seed => (k.afterSeed bs).draw
  | .block => (k.afterBlock bs).draw
  | .tail => k.afterTail.draw
  | .final => k.afterFinal.draw
  | .emit => (k.afterEmit.setDone true).draw

/-- A `BLOCK` has a next state exactly where its bytes exist. -/
theorem exec_block32 (s : State) (h : inMessage s.h32.ctl (4 * s.h32.ctl.blk.toNat) 4 = true) :
    exec .block32 s = .next { s with h32 := { s.h32 with
      ctl := (s.h32.ctl.afterBlock 4).draw
      h := some (mixBlock32 (memRead32 .h32 s.h32.ctl (4 * s.h32.ctl.blk.toNat)) s.h32.lane) } } := by
  simp [exec, execBlock32, h]

theorem exec_blockX86 (s : State) (h : inMessage s.x86.ctl (16 * s.x86.ctl.blk.toNat) 16 = true) :
    exec .blockX86 s = .next { s with x86 := { s.x86 with
      ctl := (s.x86.ctl.afterBlock 16).draw
      h := (mixBlock86 s.params.x86 s.x86.blockWords s.x86.lanes).map some } } := by
  simp [exec, execBlockX86, h]

theorem exec_blockX64 (s : State) (h : inMessage s.x64.ctl (16 * s.x64.ctl.blk.toNat) 16 = true) :
    exec .blockX64 s = .next { s with x64 := { s.x64 with
      ctl := (s.x64.ctl.afterBlock 16).draw
      h := ⟨some (mixBlock64 s.params.x64 s.x64.blockWords s.x64.lanes).v1,
        some (mixBlock64 s.params.x64 s.x64.blockWords s.x64.lanes).v2⟩ } } := by
  simp [exec, execBlockX64, h]

/-- Everything an operation can do, for the three cores: if it answers a next state, the control part of its core
moved as R182 to R186 say, a `BLOCK` had its bytes, and only that core is written. -/
theorem exec_next_h32 {i : Instr} {s t : State} (hc : i.core = .h32) (h : exec i s = .next t) :
    t = { s with h32 := t.h32 } ∧ t.h32.ctl = ctlAfter i.stem 4 s.h32.ctl ∧
    (i.stem = .block → s.h32.ctl.blk.toNat < nblocks 4 s.h32.ctl.len) ∧
    (i.stem = .emit → t.h32.h = none ∧ t.h32.digest.isSome = true) ∧
    (i.stem ≠ .emit → t.h32.digest = s.h32.digest) ∧
    (i.stem ≠ .emit → (i.stem = .tail → s.h32.h.isSome = true) → t.h32.h.isSome = true) := by
  cases i <;> try contradiction
  case block32 =>
    by_cases hb : inMessage s.h32.ctl (4 * s.h32.ctl.blk.toNat) 4 = true
    · rw [exec_block32 s hb] at h
      cases h
      simp [Instr.stem, ctlAfter, (inMessage_block_iff s.h32.ctl (by decide)).mp hb]
    · simp [exec, execBlock32, hb] at h
  case tail32 =>
    cases h
    refine ⟨rfl, rfl, by simp [Instr.stem], by simp [Instr.stem], fun _ => rfl, fun _ hs => ?_⟩
    dsimp only
    split <;> simp [hs rfl]
  all_goals
    cases h
    simp [Instr.stem, ctlAfter]

theorem exec_next_x86 {i : Instr} {s t : State} (hc : i.core = .x86) (h : exec i s = .next t) :
    t = { s with x86 := t.x86 } ∧ t.x86.ctl = ctlAfter i.stem 16 s.x86.ctl ∧
    (i.stem = .block → s.x86.ctl.blk.toNat < nblocks 16 s.x86.ctl.len) ∧
    (i.stem = .emit → (∀ j, t.x86.h.get j = none) ∧ t.x86.digest.isSome = true) ∧
    (i.stem ≠ .emit → t.x86.digest = s.x86.digest) ∧
    (i.stem ≠ .emit → (i.stem = .tail → ∀ j, (s.x86.h.get j).isSome = true) → ∀ j, (t.x86.h.get j).isSome = true) := by
  cases i <;> try contradiction
  case blockX86 =>
    by_cases hb : inMessage s.x86.ctl (16 * s.x86.ctl.blk.toNat) 16 = true
    · rw [exec_blockX86 s hb] at h
      cases h
      simp [Instr.stem, ctlAfter, (inMessage_block_iff s.x86.ctl (by decide)).mp hb]
    · simp [exec, execBlockX86, hb] at h
  case tailX86 =>
    cases h
    refine ⟨rfl, rfl, by simp [Instr.stem], by simp [Instr.stem], fun _ => rfl, fun _ hs j => ?_⟩
    have hs := hs rfl j
    cases j <;> simp only [Quad.get, tailLane86] at hs ⊢ <;> split <;> simp [hs]
  all_goals
    cases h
    simp [Instr.stem, ctlAfter]

theorem exec_next_x64 {i : Instr} {s t : State} (hc : i.core = .x64) (h : exec i s = .next t) :
    t = { s with x64 := t.x64 } ∧ t.x64.ctl = ctlAfter i.stem 16 s.x64.ctl ∧
    (i.stem = .block → s.x64.ctl.blk.toNat < nblocks 16 s.x64.ctl.len) ∧
    (i.stem = .emit → t.x64.h = ⟨none, none⟩ ∧ t.x64.digest.isSome = true) ∧
    (i.stem ≠ .emit → t.x64.digest = s.x64.digest) ∧
    (i.stem ≠ .emit → (i.stem = .tail → s.x64.h.v1.isSome = true ∧ s.x64.h.v2.isSome = true) →
      t.x64.h.v1.isSome = true ∧ t.x64.h.v2.isSome = true) := by
  cases i <;> try contradiction
  case blockX64 =>
    by_cases hb : inMessage s.x64.ctl (16 * s.x64.ctl.blk.toNat) 16 = true
    · rw [exec_blockX64 s hb] at h
      cases h
      simp [Instr.stem, ctlAfter, (inMessage_block_iff s.x64.ctl (by decide)).mp hb]
    · simp [exec, execBlockX64, hb] at h
  case tailX64 =>
    cases h
    refine ⟨rfl, rfl, by simp [Instr.stem], by simp [Instr.stem], fun _ => rfl, fun _ hs => ?_⟩
    have hs := hs rfl
    constructor <;> dsimp only <;> split <;> simp [hs]
  all_goals
    cases h
    simp [Instr.stem, ctlAfter]

/-- The control part of the core of an operation after it. -/
theorem exec_ctl {i : Instr} {s t : State} (h : exec i s = .next t) :
    t.ctl i.core = ctlAfter i.stem (blockSize i.core) (s.ctl i.core) := by
  cases hc : i.core
  · exact (exec_next_h32 hc h).2.1
  · exact (exec_next_x86 hc h).2.1
  · exact (exec_next_x64 hc h).2.1

end Sys2Proof.Machine
end

