-- ==== Sys2Proof/Laws/Turn.lean ====
section
/-! SUPPORT. What a turn can do, said once: a step of a core runs the operation of its phase, a host action has one of
the effects of R194, and a step takes one turn. -/

namespace Sys2Proof.Machine

/-- The word of an operation decodes to it, whatever follows. -/
theorem decode_wordOf_fields (i : Instr) (rest : List Byte) : decode (wordOf i.fields :: rest) = .instr i rest := by
  cases i <;> rfl

/-- The operation a core and a step name belongs to that core and is that step. -/
@[simp] theorem core_instrOf (c : CoreId) (st : Stem) : (instrOf c st).core = c := by
  cases c <;> cases st <;> rfl

@[simp] theorem stem_instrOf (c : CoreId) (st : Stem) : (instrOf c st).stem = st := by
  cases c <;> cases st <;> rfl

theorem instrOf_core_stem (i : Instr) : instrOf i.core i.stem = i := by
  cases i <;> rfl

/-- With `PHASE` the number of a step, the core's turn is that step's operation (R82, R181). -/
theorem coreTurn_of_phase {c : CoreId} {s : State} (st : Stem) (h : (s.ctl c).phase = opCode st) :
    coreTurn c s = exec (instrOf c st) s := by
  have hw : issuedWord c (opCode st) = wordOf (instrOf c st).fields := by cases c <;> cases st <;> rfl
  have hd := decode_wordOf_fields (instrOf c st) []
  have h7 : opCode st ≠ idlePhase := by cases st <;> decide
  have h4 : (opCode st).toNat ≤ 4 := by cases st <;> decide
  simp [coreTurn, h, h7, h4, execWord, hw, hd]

/-- A core's turn with a next state ran the operation of its phase. -/
theorem coreTurn_next {c : CoreId} {s t : State} (h : coreTurn c s = .next t) :
    ∃ st, (s.ctl c).phase = opCode st ∧ exec (instrOf c st) s = .next t := by
  have hp : (s.ctl c).phase = idlePhase ∨ (s.ctl c).phase = 5 ∨ (s.ctl c).phase = 6 ∨
      ∃ st, (s.ctl c).phase = opCode st := by
    have key : ∀ p : BitVec 3, p = idlePhase ∨ p = 5 ∨ p = 6 ∨ p = opCode .seed ∨ p = opCode .block ∨
        p = opCode .tail ∨ p = opCode .final ∨ p = opCode .emit := by decide
    rcases key (s.ctl c).phase with h | h | h | h | h | h | h | h
    exacts [.inl h, .inr (.inl h), .inr (.inr (.inl h)), .inr (.inr (.inr ⟨_, h⟩)), .inr (.inr (.inr ⟨_, h⟩)),
      .inr (.inr (.inr ⟨_, h⟩)), .inr (.inr (.inr ⟨_, h⟩)), .inr (.inr (.inr ⟨_, h⟩))]
  rcases hp with hp | hp | hp | ⟨st, hp⟩
  · simp [coreTurn, hp] at h
  · simp [coreTurn, hp, idlePhase] at h
  · simp [coreTurn, hp, idlePhase] at h
  · exact ⟨st, hp, by rw [← coreTurn_of_phase st hp]; exact h⟩

/-- Everything a host action can do (R194): if it answers a next state, one of these cases holds. -/
theorem hostAct_next {a : HostAction} {s t : State} (h : hostAct a s = .next t) :
    t = s ∨
    (∃ c v, a = .writeSeed c v ∧ (s.ctl c).phase = 7 ∧
      t = s.setCtl c { s.ctl c with seed := v, seedWritten := true }) ∨
    (∃ c v, a = .writeLen c v ∧ (s.ctl c).phase = 7 ∧
      t = s.setCtl c { s.ctl c with len := v, lenWritten := true }) ∨
    (∃ c bytes, a = .supply c bytes ∧ (s.ctl c).phase = 7 ∧ bytes.length < 2 ^ 32 ∧
      t = s.setCtl c { s.ctl c with msg := Memory.ofMessage bytes }) ∨
    (∃ c, a = .start c ∧ (s.ctl c).phase = 7 ∧ (s.ctl c).seedWritten = true ∧ (s.ctl c).lenWritten = true ∧
      (s.ctl c).msg.length = (s.ctl c).len.toNat ∧ t = acceptStart c s) ∨
    (∃ c, a = .reset c ∧ t = resetCore c s) ∨
    (a = .resetAll ∧ t = resetEvery s) := by
  cases a with
  | writeSeed c v =>
    simp only [hostAct, writeSeed] at h
    split at h
    · cases h; exact .inl rfl
    · rename_i hb
      cases h
      exact .inr (.inl ⟨c, v, rfl, (Control.not_busy_iff _).mp (by simpa using hb), rfl⟩)
  | writeLen c v =>
    simp only [hostAct, writeLen] at h
    split at h
    · cases h; exact .inl rfl
    · rename_i hb
      cases h
      exact .inr (.inr (.inl ⟨c, v, rfl, (Control.not_busy_iff _).mp (by simpa using hb), rfl⟩))
  | supply c bytes =>
    simp only [hostAct, supplyMessage] at h
    split at h
    · cases h
    · rename_i hb
      split at h
      · rename_i hl
        cases h
        exact .inr (.inr (.inr (.inl ⟨c, bytes, rfl, (Control.not_busy_iff _).mp (by simpa using hb), hl, rfl⟩)))
      · cases h
  | start c =>
    simp only [hostAct, pulseStart] at h
    split at h
    · cases h; exact .inl rfl
    · rename_i hb
      split at h
      · cases h
      · rename_i hw
        split at h
        · cases h
        · rename_i hl
          cases h
          simp only [Bool.not_eq_true', Bool.not_eq_false, Bool.and_eq_true] at hw
          exact .inr (.inr (.inr (.inr (.inl ⟨c, rfl, (Control.not_busy_iff _).mp (by simpa using hb), hw.1, hw.2,
            not_not.mp hl, rfl⟩))))
  | read c port =>
    simp only [hostAct, readTurn] at h
    split at h
    · cases h; exact .inl rfl
    · cases h
  | reset c => cases h; exact .inr (.inr (.inr (.inr (.inr (.inl ⟨c, rfl, rfl⟩)))))
  | resetAll => cases h; exact .inr (.inr (.inr (.inr (.inr (.inr ⟨rfl, rfl⟩)))))

/-- Everything a step can do: it takes the turn at the head of the schedule off it, or with an empty schedule it is a
turn of the first busy core. -/
theorem step_next {s t : State} (h : step s = .next t) :
    (∃ a rest, s.schedule = .host a :: rest ∧ hostAct a { s with schedule := rest } = .next t) ∨
    (∃ c rest, s.schedule = .core c :: rest ∧ coreTurn c { s with schedule := rest } = .next t) ∨
    (∃ c, s.schedule = [] ∧ firstBusy s = some c ∧ coreTurn c s = .next t) := by
  simp only [step, nextTurn] at h
  split at h
  · rename_i a rest hs
    exact .inl ⟨a, rest, hs, h⟩
  · rename_i c rest hs
    exact .inr (.inl ⟨c, rest, hs, h⟩)
  · rename_i hs
    split at h
    · rename_i c hf
      exact .inr (.inr ⟨c, hs, hf, h⟩)
    · cases h

/-- A step with a host turn at the head of the schedule is that host action. -/
theorem step_host {s : State} {a : HostAction} {rest : List Turn} (h : s.schedule = .host a :: rest) :
    step s = hostAct a { s with schedule := rest } := by
  simp [step, nextTurn, h]

/-- A step with a core turn at the head of the schedule is that core's turn. -/
theorem step_core {s : State} {c : CoreId} {rest : List Turn} (h : s.schedule = .core c :: rest) :
    step s = coreTurn c { s with schedule := rest } := by
  simp [step, nextTurn, h]

/-- A core in phase 5 or 6 is stuck (U8; log 11). -/
theorem coreTurn_stuck {c : CoreId} {s : State} (h : (s.ctl c).phase = 5 ∨ (s.ctl c).phase = 6) :
    coreTurn c s = .fault (.stuckPhase c) := by
  rcases h with h | h <;> simp [coreTurn, h, idlePhase]

/-- Everything `Control.withBlock` does: it writes `BLK` and `LEN` alone, leaves them where a block is left, and there is
a block afterwards (log 15). -/
theorem Control.withBlock_spec (k : Control) {bs : Nat} (h1 : 0 < bs) (h2 : bs < 2 ^ 32) :
    ∃ b l : Word32, k.withBlock bs = { k with blk := b, len := l } ∧ b.toNat < l.toNat / bs ∧
      (k.blk.toNat < k.len.toNat / bs → b = k.blk ∧ l = k.len) ∧
      (k.len.toNat / bs ≤ k.blk.toNat → b = 0 ∧ l.toNat = max k.len.toNat bs) := by
  have e : (BitVec.ofNat 32 bs).toNat = bs := by rw [BitVec.toNat_ofNat, Nat.mod_eq_of_lt h2]
  by_cases h : k.blk.toNat < k.len.toNat / bs
  · exact ⟨k.blk, k.len, by simp [Control.withBlock, nblocks, h], h, fun _ => ⟨rfl, rfl⟩, fun _ => by omega⟩
  by_cases hl : k.len.toNat < bs
  · exact ⟨0, BitVec.ofNat 32 bs, by simp [Control.withBlock, nblocks, h, hl], by rw [e, Nat.div_self h1]; decide,
      fun h' => absurd h' h, fun _ => ⟨rfl, by omega⟩⟩
  · exact ⟨0, k.len, by simp [Control.withBlock, nblocks, h, hl], by simpa using Nat.div_pos (Nat.le_of_not_lt hl) h1,
      fun h' => absurd h' h, fun _ => ⟨rfl, by omega⟩⟩

end Sys2Proof.Machine
end

