-- ==== Sys2Proof/Laws/PerInstr.lean ====
section
/-! SUPPORT. Statements about every operation as syntax, one lemma for each constructor (LAWS.json). -/

namespace Sys2Proof.Laws

namespace Encoding

/-- The word of an operation is one byte whose fields are legal and name its core and its step, and the table's
numbering reads it back (30_encoding.md R80, R81, R84). -/
def Statement (i : Instr) : Prop :=
  i.wellFormed = true ∧ i.fields.wellFormed = true ∧ (encode i).length = 1 ∧
  fieldsOf (wordOf i.fields) = i.fields ∧ decodeTableWord 8 (wordOf i.fields).toNat = some i

theorem seed32 : Statement .seed32 := by unfold Statement; decide
theorem block32 : Statement .block32 := by unfold Statement; decide
theorem tail32 : Statement .tail32 := by unfold Statement; decide
theorem final32 : Statement .final32 := by unfold Statement; decide
theorem emit32 : Statement .emit32 := by unfold Statement; decide
theorem seedX86 : Statement .seedX86 := by unfold Statement; decide
theorem blockX86 : Statement .blockX86 := by unfold Statement; decide
theorem tailX86 : Statement .tailX86 := by unfold Statement; decide
theorem finalX86 : Statement .finalX86 := by unfold Statement; decide
theorem emitX86 : Statement .emitX86 := by unfold Statement; decide
theorem seedX64 : Statement .seedX64 := by unfold Statement; decide
theorem blockX64 : Statement .blockX64 := by unfold Statement; decide
theorem tailX64 : Statement .tailX64 := by unfold Statement; decide
theorem finalX64 : Statement .finalX64 := by unfold Statement; decide
theorem emitX64 : Statement .emitX64 := by unfold Statement; decide

end Encoding

end Sys2Proof.Laws
end

