-- ==== Sys2Proof/Tests/Slice0.lean ====
section
/-! SUPPORT. Tests of single words and single steps, and the witnesses of the statements' hypotheses. Expected values
are those of spec/95_test_vectors.md and of the rules named, never the model's own answers. -/

namespace Sys2Proof.Tests

open Machine

/-! ## Helpers -/

/-- The bytes 1, 2, .., n: "seq(n)" of 95_test_vectors.md. -/
def seq (n : Nat) : List Byte := (List.range n).map fun i => BitVec.ofNat 8 (i + 1)

/-- The bytes of "Hello, world!" (95 section 1.1, S4). -/
def hello : List Byte :=
  [0x48#8, 0x65#8, 0x6c#8, 0x6c#8, 0x6f#8, 0x2c#8, 0x20#8, 0x77#8, 0x6f#8, 0x72#8, 0x6c#8, 0x64#8, 0x21#8]

/-- A control part with both operands written and a message of length `LEN` supplied. -/
def ctlAt (phase : BitVec 3) (blk seed : Word32) (m : List Byte) : Control :=
  { Control.reset with
    seed := seed, len := BitVec.ofNat 32 m.length, phase := phase, blk := blk, msg := Memory.ofMessage m,
    seedWritten := true, lenWritten := true }

/-- The reset machine with H32 as given. -/
def at32 (k : Control) (h : Option Word32) : State :=
  { State.reset with h32 := { ctl := k, h := h, digest := none } }

/-- The reset machine with X86 as given. -/
def at86 (k : Control) (h : Quad (Option Word32)) : State :=
  { State.reset with x86 := { ctl := k, h := h, digest := none } }

/-- The reset machine with X64 as given. -/
def at64 (k : Control) (h : Duo (Option Word64)) : State :=
  { State.reset with x64 := { ctl := k, h := h, digest := none } }

/-- Four lanes with values. -/
def lanes4 (a b c d : Word32) : Quad (Option Word32) := ⟨some a, some b, some c, some d⟩

/-- Something of the next state, where there is one. -/
def after {α : Type} (f : State → α) : Host.Outcome State Fault Refusal → Option α
  | .next s => some (f s)
  | .fault _ => none
  | .refused _ => none

/-- The fault, where there is one. -/
def faultOf : Host.Outcome State Fault Refusal → Option Fault
  | .fault r => some r
  | .next _ => none
  | .refused _ => none

/-- The refusal, where there is one. -/
def refusalOf : Host.Outcome State Fault Refusal → Option Refusal
  | .refused r => some r
  | .next _ => none
  | .fault _ => none

/-- `pc = (PHASE, BLK)` of a core. -/
def pc (c : CoreId) (s : State) : BitVec 3 × Word32 := ((s.ctl c).phase, (s.ctl c).blk)

/-- The next state, where there is one, else the state itself. -/
def nextOr (s : State) : Host.Outcome State Fault Refusal → State
  | .next t => t
  | .fault _ => s
  | .refused _ => s

/-! ## Well-formedness: each check refuses an ill-formed term (R85, R12, D20, D23) -/

theorem test_wellFormed_rsv : Fields.wellFormed ⟨1#3, 0#2, 0#3⟩ = false := by decide
theorem test_wellFormed_core : Fields.wellFormed ⟨0#3, 3#2, 0#3⟩ = false := by decide
theorem test_wellFormed_op : Fields.wellFormed ⟨0#3, 0#2, 5#3⟩ = false ∧ Fields.wellFormed ⟨0#3, 1#2, 6#3⟩ = false ∧
    Fields.wellFormed ⟨0#3, 2#2, 7#3⟩ = false := by decide
theorem test_wellFormed_legal : Fields.wellFormed ⟨0#3, 2#2, 4#3⟩ = true := by decide
theorem test_rotationOk_bounds : rotationOk 32 0 = false ∧ rotationOk 32 32 = false ∧ rotationOk 64 0 = false ∧
    rotationOk 64 64 = false ∧ rotationOk 32 31 = true ∧ rotationOk 64 63 = true := by decide
theorem test_params_krot86 :
    Params.admitted { reference with x86 := { x86Reference with krot := ⟨15, 16, 17, 32⟩ } } = false := by decide
theorem test_params_hrot86 :
    Params.admitted { reference with x86 := { x86Reference with hrot := ⟨0, 17, 15, 13⟩ } } = false := by decide
theorem test_params_krot64 : Params.admitted { reference with x64 := ⟨64, 31⟩ } = false := by decide
theorem test_params_hrot64 : Params.admitted { reference with x64 := ⟨33, 0⟩ } = false := by decide
theorem test_params_admitted : reference.admitted = true ∧ docLiteral.admitted = true := by decide

/-! ## Decoding: words written out as rsv, core, op (R80, R81, R84, R85; 95 section 5) -/

theorem test_decode_seed32 : decode [0b00000000#8] = .instr .seed32 [] := by decide
theorem test_decode_block32 : decode [0b00000001#8] = .instr .block32 [] := by decide
theorem test_decode_tail32 : decode [0b00000010#8] = .instr .tail32 [] := by decide
theorem test_decode_final32 : decode [0b00000011#8] = .instr .final32 [] := by decide
theorem test_decode_emit32 : decode [0b00000100#8] = .instr .emit32 [] := by decide
theorem test_decode_seedX86 : decode [0b00001000#8] = .instr .seedX86 [] := by decide
theorem test_decode_blockX86 : decode [0b00001001#8] = .instr .blockX86 [] := by decide
theorem test_decode_tailX86 : decode [0b00001010#8] = .instr .tailX86 [] := by decide
theorem test_decode_finalX86 : decode [0b00001011#8] = .instr .finalX86 [] := by decide
theorem test_decode_emitX86 : decode [0b00001100#8] = .instr .emitX86 [] := by decide
theorem test_decode_seedX64 : decode [0b00010000#8] = .instr .seedX64 [] := by decide
theorem test_decode_blockX64 : decode [0b00010001#8] = .instr .blockX64 [] := by decide
theorem test_decode_tailX64 : decode [0b00010010#8] = .instr .tailX64 [] := by decide
theorem test_decode_finalX64 : decode [0b00010011#8] = .instr .finalX64 [] := by decide
theorem test_decode_emitX64 : decode [0b00010100#8] = .instr .emitX64 [] := by decide
theorem test_decode_reserved : decode [0x05#8] = .illegal .reservedOp ∧ decode [0x07#8] = .illegal .reservedOp ∧
    decode [0x0d#8] = .illegal .reservedOp ∧ decode [0x18#8] = .illegal .reservedCore ∧
    decode [0x20#8] = .illegal .reservedBits ∧ decode [0x81#8] = .illegal .reservedBits ∧
    decode [0xff#8] = .illegal .reservedBits := by decide
theorem test_decode_rest : decode [0x12#8, 0xff#8] = .instr .tailX64 [0xff#8] ∧ decode [] = .illegal .noByte := by
  decide
theorem test_decodeTableWord : decodeTableWord 8 0x0b = some .finalX86 ∧ decodeTableWord 8 0x15 = none := by decide
theorem test_mnemonic : Instr.mnemonic .blockX86 = "BLOCK.X86" ∧ Instr.mnemonic .emit32 = "EMIT.32" := by decide

/-! ## Primitives (95 section 2.1) -/

theorem test_rotl : rotl 0x80000001#32 1 = 0x00000003#32 ∧ rotl 0x12345678#32 15 = 0x2b3c091a#32 ∧
    rotl 0x0123456789abcdef#64 33 = 0x13579bde02468acf#64 := by decide
theorem test_le : le [0x48#8, 0x65#8, 0x6c#8, 0x6c#8] = 0x6c6c6548 ∧ le [] = 0 := by decide

/-! ## H32 (95 section 2.3) -/

theorem test_seed32 : after (fun t => (t.h32.h, pc .h32 t)) (exec .seed32 (at32 (ctlAt 0 0 0xffffffff#32 hello) none)) =
    some (some 0xffffffff#32, 1, 0) := by decide
theorem test_seed32_noBlock : after (pc .h32) (exec .seed32 (at32 (ctlAt 0 0 0 (seq 3)) none)) = some (2, 0) := by decide
theorem test_block32 : after (fun t => (t.h32.h, pc .h32 t))
    (exec .block32 (at32 (ctlAt 1 1 0 hello) (some 0xcb5bec36#32))) = some (some 0x22b5bd6f#32, 1, 2) := by decide
theorem test_block32_ones : after (fun t => (t.h32.h, pc .h32 t))
    (exec .block32 (at32 (ctlAt 1 0 0 (List.replicate 4 0xff#8)) (some 0))) = some (some 0x145ee0d5#32, 2, 1) := by decide
theorem test_tail32 : after (fun t => (t.h32.h, pc .h32 t))
    (exec .tail32 (at32 (ctlAt 2 1 0 (seq 7)) (some 0x4eb26727#32))) = some (some 0x54f8b6cd#32, 3, 1) := by decide
theorem test_tail32_none : after (fun t => t.h32.h)
    (exec .tail32 (at32 (ctlAt 2 1 0 (seq 4)) (some 0x720c8863#32))) = some (some 0x720c8863#32) := by decide
theorem test_final32 : after (fun t => (t.h32.h, pc .h32 t))
    (exec .final32 (at32 (ctlAt 3 3 0 hello) (some 0x0d07536a#32))) = some (some 0xc0363e43#32, 4, 3) := by decide
theorem test_emit32 : after (fun t => (t.h32.digest, t.h32.ctl.done, t.h32.h, pc .h32 t))
    (exec .emit32 (at32 (ctlAt 4 3 0 hello) (some 0xc0363e43#32))) =
    some (some 0xc0363e43#32, true, none, 7, 3) := by decide

/-! ## X86 under REFERENCE (95 section 4.2) -/

theorem test_seedX86 : after (fun t => (t.x86.h, pc .x86 t))
    (exec .seedX86 (at86 (ctlAt 0 0 1 (seq 15)) (Quad.all none))) = some (lanes4 1 1 1 1, 2, 0) := by decide
theorem test_blockX86 : after (fun t => (t.x86.h, pc .x86 t))
    (exec .blockX86 (at86 (ctlAt 1 0 0 (seq 16)) (lanes4 0 0 0 0))) =
    some (lanes4 0xcb24cb59#32 0x7aae8956#32 0x788c413a#32 0x83f21fef#32, 2, 1) := by decide
theorem test_tailX86 : after (fun t => t.x86.h) (exec .tailX86 (at86 (ctlAt 2 0 0 hello) (lanes4 0 0 0 0))) =
    some (lanes4 0x1eef14a7#32 0x709c089b#32 0x58482592#32 0x82396dc1#32) := by decide
theorem test_tailX86_oneByte : after (fun t => t.x86.h)
    (exec .tailX86 (at86 (ctlAt 2 1 0 (seq 17)) (lanes4 0xcb24cb59#32 0x7aae8956#32 0x788c413a#32 0x83f21fef#32))) =
    some (lanes4 0x281875a3#32 0x7aae8956#32 0x788c413a#32 0x83f21fef#32) := by decide
theorem test_finalX86 : after (fun t => t.x86.h)
    (exec .finalX86 (at86 (ctlAt 3 0 0 hello) (lanes4 0x1eef14a7#32 0x709c089b#32 0x58482592#32 0x82396dc1#32))) =
    some (lanes4 0x26acdba7#32 0xf0638dfc#32 0x402b4263#32 0x0afdd4c3#32) := by decide
theorem test_emitX86 : after (fun t => (t.x86.digest, t.x86.ctl.done, t.x86.h, pc .x86 t))
    (exec .emitX86 (at86 (ctlAt 4 0 0 []) (lanes4 0x88c4adec#32 0x54d201b9#32 0x54d201b8#32 0x54d201b7#32))) =
    some (some ⟨0x88c4adec#32, 0x54d201b9#32, 0x54d201b8#32, 0x54d201b7#32⟩, true, Quad.all none, 7, 0) := by decide
theorem test_kmix86 : kmix86 x86Reference .two 0x77202c6f#32 = 0x709c089b#32 ∧
    kmix86 x86Reference .three 0x646c726f#32 = 0x58482592#32 ∧
    kmix86 x86Reference .four 0x00000021#32 = 0x82396dc1#32 := by decide

/-! ## X64 (95 section 3.2) -/

theorem test_seedX64 : after (fun t => (t.x64.h, pc .x64 t))
    (exec .seedX64 (at64 (ctlAt 0 0 0xffffffff#32 (seq 16)) ⟨none, none⟩)) =
    some (⟨some 0x00000000ffffffff#64, some 0x00000000ffffffff#64⟩, 1, 0) := by decide
theorem test_blockX64 : after (fun t => (t.x64.h, pc .x64 t))
    (exec .blockX64 (at64 (ctlAt 1 0 0 (seq 17)) ⟨some 0, some 0⟩)) =
    some (⟨some 0x178124fd7f939672#64, some 0x561de10afd457487#64⟩, 2, 1) := by decide
theorem test_tailX64 : after (fun t => t.x64.h) (exec .tailX64 (at64 (ctlAt 2 0 0 hello) ⟨some 0, some 0⟩)) =
    some ⟨some 0x855b899adee33158#64, some 0x428590eafe92a4df#64⟩ := by decide
theorem test_tailX64_oneByte : after (fun t => t.x64.h)
    (exec .tailX64 (at64 (ctlAt 2 1 0 (seq 17)) ⟨some 0x178124fd7f939672#64, some 0x561de10afd457487#64⟩)) =
    some ⟨some 0x1155499e74d2875d#64, some 0x561de10afd457487#64⟩ := by decide
theorem test_finalX64 : after (fun t => t.x64.h) (exec .finalX64
    (at64 (ctlAt 3 1 0 (seq 17)) ⟨some 0x1155499e74d2875d#64, some 0x561de10afd457487#64⟩)) =
    some ⟨some 0xf224a4101ea076ab#64, some 0x0a50f3f36bc8da86#64⟩ := by decide
theorem test_emitX64 : after (fun t => (t.x64.digest, t.x64.ctl.done, t.x64.h, pc .x64 t))
    (exec .emitX64 (at64 (ctlAt 4 0 0 []) ⟨some 0x4610abe56eff5cb5#64, some 0x51622daa78f83583#64⟩)) =
    some (some ⟨0x4610abe56eff5cb5#64, 0x51622daa78f83583#64⟩, true, ⟨none, none⟩, 7, 0) := by decide
theorem test_digestWords : digestWords ⟨0x4610abe56eff5cb5#64, 0x51622daa78f83583#64⟩ =
    ⟨0x6eff5cb5#32, 0x4610abe5#32, 0x78f83583#32, 0x51622daa#32⟩ := by decide
theorem test_kmix64b_docLiteral : kmix64b x64DocLiteral 0x100f0e0d0c0b0a09#64 = 0x0e386eb8601e6e6b#64 := by decide

/-! ## The function level (95 sections 3.3, 4.3) -/

theorem test_hash128x86 : hash128x86 x86Reference hello 0x9747b28c#32 =
    ⟨0x756d5460#32, 0xbb872216#32, 0xb7d48b7c#32, 0x53c8c636#32⟩ := by decide
theorem test_hash128x64 : hash128x64 x64Reference (List.replicate 16 0xff#8) 0 =
    ⟨0xd8ce73d7a39a46e6#64, 0xd0ac179d2650b632#64⟩ := by decide
theorem test_hash128x64_docLiteral : hash128x64 x64DocLiteral (List.replicate 16 0xff#8) 0 =
    ⟨0xe0a84736e6fe6611#64, 0xc0c73df7551670a3#64⟩ := by decide

/-! ## The sequencer, the host and the schedule (95 section 5 and section 7, P5) -/

/-- H32 idle after a run, `DONE` = 1. -/
def done32 : State :=
  { State.reset with
    h32 := { ctl := { ctlAt 7 1 0x9747b28c#32 (List.replicate 4 0x61#8) with done := true }, h := none,
             digest := some 0x5a97808a#32 } }

theorem test_start : after (fun t => (pc .h32 t, t.h32.ctl.done, t.h32.digest)) (hostAct (.start .h32) done32) =
    some ((0, 0), false, none) := by decide
theorem test_start_busy : hostAct (.start .h32) (at32 (ctlAt 1 2 0 hello) (some 7)) =
    .next (at32 (ctlAt 1 2 0 hello) (some 7)) := rfl
theorem test_writeSeed : after (fun t => t.h32.ctl.seed) (hostAct (.writeSeed .h32 9) (at32 (ctlAt 7 0 5 []) none)) =
    some 9 ∧ after (fun t => t.h32.ctl.seed) (hostAct (.writeSeed .h32 9) (at32 (ctlAt 1 0 5 hello) (some 0))) =
    some 5 := by decide
theorem test_writeLen : after (fun t => t.h32.ctl.len) (hostAct (.writeLen .h32 0) (at32 (ctlAt 3 3 5 hello) (some 0))) =
    some 13 := by decide
theorem test_read_digest : hostRead .h32 .digest done32 = .ok (.digest (.h32 0x5a97808a#32)) ∧
    hostAct (.read .h32 .digest) done32 = .next done32 := ⟨rfl, rfl⟩
theorem test_read_digest_refused : refusalOf (hostAct (.read .h32 .digest) (at32 (ctlAt 2 1 0 (seq 4)) (some 0))) =
    some (.digestHasNoValue .h32) := by decide
theorem test_reset_done : after (fun t => (t.h32.ctl.phase, t.h32.ctl.done, t.h32.digest, t.h32.ctl.msg.length))
    (hostAct (.reset .h32) done32) = some (7, false, none, 4) := by decide
theorem test_reset_busy : after (fun t => (t.h32.ctl.phase, t.h32.h, t.x64.ctl.phase))
    (hostAct (.reset .h32) (at32 (ctlAt 1 2 0 hello) (some 7))) = some (7, none, 7) := by decide
theorem test_idle_has_no_step : faultOf (coreTurn .h32 done32) = some (.idle .h32) ∧
    faultOf (step State.reset) = some .allIdle := by decide
theorem test_stuck : faultOf (coreTurn .x64 (at64 (ctlAt 5 0 0 []) ⟨none, none⟩)) = some (.stuckPhase .x64) := by decide
theorem test_launch_refused :
    refusalOf (hostAct (.start .x86) State.reset) = some (.operandsNotWritten .x86) ∧
    refusalOf (hostAct (.start .h32) (at32 { ctlAt 7 0 0 hello with len := 12 } none)) =
      some (.lengthMismatch .h32) := by decide
theorem test_supply_busy : refusalOf (hostAct (.supply .h32 hello) (at32 (ctlAt 0 0 0 []) none)) =
    some (.messageInFlight .h32) := by decide
theorem test_step_schedule : after (fun t => (pc .h32 t, t.h32.h, t.schedule))
    (step { at32 (ctlAt 1 0 0 (List.replicate 4 0x61#8)) (some 0x9747b28c#32) with
      schedule := [.core .h32, .host .resetAll] }) =
    some ((2, 1), some 0x720c8863#32, [.host .resetAll]) := by decide
theorem test_step_firstBusy : after (fun t => t.x64.ctl.phase) (step (at64 (ctlAt 2 0 0 []) ⟨some 1, some 1⟩)) =
    some 3 := by decide
theorem test_placed_block : after (pc .x86) (step (State.reset.withFetchWord 8 0x09)) = some (2, 1) := by decide
theorem test_placed_emit : after (fun t => (t.x64.ctl.phase, t.x64.ctl.done))
    (step (State.reset.withFetchWord 8 0x14)) = some (7, true) := by decide
theorem test_placed_reserved : State.reset.withFetchWord 8 0x20 = State.reset := by decide

/-! ## Witnesses: states and operands that meet the hypotheses of the statements -/

theorem msgHolds_of {k : Control} {off : Nat} {bs : List Byte}
    (h : (List.range bs.length).all (fun j => Memory.read k.msg (off + j) == bs[j]?) = true) : MsgHolds k off bs := by
  intro j b hb
  have hj : j < bs.length := (List.getElem?_eq_some_iff.mp hb).1
  have := List.all_eq_true.mp h j (List.mem_range.mpr hj)
  simpa [hb] using this

/-- One block of a message of `n` bytes at work in each core: `PHASE` 1, `BLK` 0. -/
def busy32 : State := at32 (ctlAt 1 0 5 (seq 4)) (some 7)
def busy86 : State := at86 (ctlAt 1 0 5 (seq 16)) (lanes4 1 2 3 4)
def busy64 : State := at64 (ctlAt 1 0 5 (seq 16)) ⟨some 1, some 2⟩
/-- A core idle and ready for `START`. -/
def ready32 : State := at32 (ctlAt 7 0 5 (seq 4)) none
/-- H32 and X64 both at work. -/
def both : State := { busy32 with x64 := busy64.x64 }

theorem lanesInv_of {p : BitVec 3} {l : List (Option Word64)}
    (h : p = 1 ∨ p = 2 ∨ p = 3 ∨ p = 4 → l.all Option.isSome = true)
    (h' : p = 0 ∨ p = 7 → l.all Option.isNone = true) : LanesInv p l :=
  ⟨fun hp o ho => List.all_eq_true.mp (h hp) o ho,
    fun hp o ho => by simpa using List.all_eq_true.mp (h' hp) o ho⟩

theorem inv_busy32 : MachineInv busy32 := ⟨by decide, fun c => by
  cases c <;> unfold CoreInv ControlInv <;>
    refine ⟨⟨?_, lt_trans (b := 100) ?_ (by norm_num), ?_⟩, lanesInv_of ?_ ?_, ?_⟩ <;> decide⟩
theorem inv_busy86 : MachineInv busy86 := ⟨by decide, fun c => by
  cases c <;> unfold CoreInv ControlInv <;>
    refine ⟨⟨?_, lt_trans (b := 100) ?_ (by norm_num), ?_⟩, lanesInv_of ?_ ?_, ?_⟩ <;> decide⟩
theorem inv_busy64 : MachineInv busy64 := ⟨by decide, fun c => by
  cases c <;> unfold CoreInv ControlInv <;>
    refine ⟨⟨?_, lt_trans (b := 100) ?_ (by norm_num), ?_⟩, lanesInv_of ?_ ?_, ?_⟩ <;> decide⟩
theorem inv_ready32 : MachineInv ready32 := ⟨by decide, fun c => by
  cases c <;> unfold CoreInv ControlInv <;>
    refine ⟨⟨?_, lt_trans (b := 100) ?_ (by norm_num), ?_⟩, lanesInv_of ?_ ?_, ?_⟩ <;> decide⟩
theorem inv_done32 : MachineInv done32 := ⟨by decide, fun c => by
  cases c <;> unfold CoreInv ControlInv <;>
    refine ⟨⟨?_, lt_trans (b := 100) ?_ (by norm_num), ?_⟩, lanesInv_of ?_ ?_, ?_⟩ <;> decide⟩
/-- The last phases, with no block left. -/
theorem inv_last : MachineInv (at64 (ctlAt 4 1 5 (seq 31)) ⟨some 1, some 2⟩) := ⟨by decide, fun c => by
  cases c <;> unfold CoreInv ControlInv <;>
    refine ⟨⟨?_, lt_trans (b := 100) ?_ (by norm_num), ?_⟩, lanesInv_of ?_ ?_, ?_⟩ <;> decide⟩

theorem witness_RotlMovesEveryBitUp :
    (0 < 1 ∧ 1 < 32 ∧ 31 < 32) ∧ (0 < 63 ∧ 63 < 64 ∧ 0 < 64) ∧
    rotl 0x8000000000000001#64 1 = 0x0000000000000003#64 := by decide
theorem witness_MemReadIsLittleEndian :
    (MsgHolds (ctlAt 1 0 0 (seq 8)) 7 [8#8] ∧ 7 + [8#8].length ≤ (ctlAt 1 0 0 (seq 8)).len.toNat) ∧
    (MsgHolds (ctlAt 1 0 0 (seq 8)) 4 [5#8, 6#8, 7#8, 8#8] ∧ 4 + 4 ≤ (ctlAt 1 0 0 (seq 8)).len.toNat) ∧
    (MsgHolds (ctlAt 1 0 0 (seq 8)) 0 (seq 8) ∧ 0 + (seq 8).length ≤ (ctlAt 1 0 0 (seq 8)).len.toNat) :=
  ⟨⟨msgHolds_of (by decide), by decide⟩, ⟨msgHolds_of (by decide), by decide⟩, msgHolds_of (by decide), by decide⟩
theorem witness_NoOperationWritesMemory :
    (∃ t, exec .block32 busy32 = .next t) ∧ (∃ t, exec .tailX86 busy86 = .next t) ∧
    ∃ t, exec .emitX64 busy64 = .next t := ⟨⟨_, rfl⟩, ⟨_, rfl⟩, ⟨_, rfl⟩⟩
/-- A message space with other bytes from offset `LEN` on. -/
theorem witness_BytesBeyondLenDoNotMatter :
    (∀ a, a < (busy32.ctl .h32).len.toNat →
      Memory.read (Memory.ofMessage (seq 9)) a = Memory.read (busy32.ctl .h32).msg a) ∧
    Memory.read (Memory.ofMessage (seq 9)) 4 ≠ Memory.read (busy32.ctl .h32).msg 4 := by decide
theorem witness_ReservedWordsAreRefused :
    ((0x20#8 : Byte).extractLsb' 5 3 ≠ 0#3) ∧ ((0x18#8 : Byte).extractLsb' 3 2 = 3#2) ∧
    5 ≤ ((0x05#8 : Byte).extractLsb' 0 3).toNat ∧ 5 ≤ ((0x07#8 : Byte).extractLsb' 0 3).toNat ∧
    (Instr.core .block32 ≠ .x64 ∧ encode .block32 = [0x01#8]) ∧ (0#3).toNat ≤ 4 ∧ (4#3).toNat ≤ 4 := by decide
theorem witness_SequencerIssuesItsPhase :
    ((at32 (ctlAt 0 0 0 []) none).ctl .h32).phase.toNat ≤ 4 ∧
    ((at64 (ctlAt 4 0 0 []) ⟨some 1, some 2⟩).ctl .x64).phase.toNat ≤ 4 ∧ (State.reset.ctl .x86).phase = 7 := by decide
theorem witness_StepRunsTheIssuedOperation :
    (turnOf { both with schedule := [.core .x64] } = some (.core .x64) ∧
      (({ both with schedule := [.core .x64] } : State).ctl .x64).phase.toNat ≤ 4 ∧
      decode [issuedWord .x64 1] = .instr .blockX64 []) ∧
    turnOf both = some (.core .h32) ∧ (both.ctl .h32).phase.toNat ≤ 4 ∧
      decode [issuedWord .h32 1] = .instr .block32 [] := by decide
/-- No `BLOCK`; a `BLOCK` with a block left; and two without one, `LEN` below one block and at one block. -/
theorem witness_PlacedWordIsStepped :
    Instr.stem .tail32 ≠ .block ∧
    (busy86.ctl .x86).blk.toNat < (busy86.ctl .x86).len.toNat / blockSize .x86 ∧
    (Instr.stem .block32 = .block ∧ (State.reset.ctl .h32).len.toNat / blockSize .h32 ≤ (State.reset.ctl .h32).blk.toNat) ∧
    ((at32 (ctlAt 1 1 0 (seq 4)) none).ctl .h32).len.toNat / blockSize .h32 ≤
      ((at32 (ctlAt 1 1 0 (seq 4)) none).ctl .h32).blk.toNat := by decide
theorem witness_Fmix32IsTheAvalanche :
    (0x00000001#32 : Word32) = 1#32 ^^^ (1#32 >>> 16) ∧ (0x85ebca6b#32 : Word32) = 0x00000001#32 * 0x85ebca6b#32 ∧
    (0x85efe535#32 : Word32) = 0x85ebca6b#32 ^^^ (0x85ebca6b#32 >>> 13) ∧
    (0x514e79f9#32 : Word32) = 0x85efe535#32 * 0xc2b2ae35#32 := by decide
theorem witness_X64HelpersAreTheSourceFormulas :
    (1#64 : Word64) = 1#64 ^^^ (1#64 >>> 33) ∧ (0xff51afd7ed558ccd#64 : Word64) = 1#64 * 0xff51afd7ed558ccd#64 ∧
    (0xff51afd792fd5b26#64 : Word64) = 0xff51afd7ed558ccd#64 ^^^ (0xff51afd7ed558ccd#64 >>> 33) ∧
    (0xb456bcfc6ee99552#64 : Word64) = 0xff51afd792fd5b26#64 * 0xc4ceb9fe1a85ec53#64 := by decide

/-- The only block, and the last of three. -/
theorem witness_Block32MixesOneWord :
    (busy32.h32.ctl.blk.toNat < busy32.h32.ctl.len.toNat / 4 ∧
      MsgHolds busy32.h32.ctl (4 * busy32.h32.ctl.blk.toNat) [1#8, 2#8, 3#8, 4#8]) ∧
    (ctlAt 1 2 0 hello).blk.toNat < (ctlAt 1 2 0 hello).len.toNat / 4 ∧
      MsgHolds (ctlAt 1 2 0 hello) (4 * (ctlAt 1 2 0 hello).blk.toNat) [0x6f#8, 0x72#8, 0x6c#8, 0x64#8] :=
  ⟨⟨by decide, msgHolds_of (by decide)⟩, by decide, msgHolds_of (by decide)⟩
/-- `r` = 0 and `r` = 3. -/
theorem witness_Tail32FoldsTheTail :
    (([] : List Byte).length = (ctlAt 2 1 0 (seq 4)).len.toNat % 4 ∧
      MsgHolds (ctlAt 2 1 0 (seq 4)) (4 * ((ctlAt 2 1 0 (seq 4)).len.toNat / 4)) []) ∧
    [5#8, 6#8, 7#8].length = (ctlAt 2 1 0 (seq 7)).len.toNat % 4 ∧
      MsgHolds (ctlAt 2 1 0 (seq 7)) (4 * ((ctlAt 2 1 0 (seq 7)).len.toNat / 4)) [5#8, 6#8, 7#8] :=
  ⟨⟨by decide, msgHolds_of (by decide)⟩, by decide, msgHolds_of (by decide)⟩
theorem witness_BlockX86MixesFourWords :
    (seq 16).length = 16 ∧ busy86.x86.ctl.blk.toNat < busy86.x86.ctl.len.toNat / 16 ∧
      MsgHolds busy86.x86.ctl (16 * busy86.x86.ctl.blk.toNat) (seq 16) :=
  ⟨by decide, by decide, msgHolds_of (by decide)⟩
theorem witness_BlockX64MixesTwoWords :
    (seq 16).length = 16 ∧ busy64.x64.ctl.blk.toNat < busy64.x64.ctl.len.toNat / 16 ∧
      MsgHolds busy64.x64.ctl (16 * busy64.x64.ctl.blk.toNat) (seq 16) :=
  ⟨by decide, by decide, msgHolds_of (by decide)⟩
/-- The tails of 16-byte blocks, of both cores: `r` = 0, 1, 4, 5, 8, 9, 12, 13, 15, and a tail behind a block. At
`r` = 4 lane 1 is touched and lane 2 is not; at 5 lane 2 is; at 8 `h2` of X64 is not touched, at 9 it is. -/
theorem witness_TailX86FoldsTheTail :
    ((0 :: 1 :: 4 :: 5 :: 8 :: 9 :: 12 :: 13 :: [15]).all fun r =>
      (seq r).length == (ctlAt 2 0 0 (seq r)).len.toNat % 16 &&
      (List.range (seq r).length).all fun j =>
        Memory.read (ctlAt 2 0 0 (seq r)).msg (16 * ((ctlAt 2 0 0 (seq r)).len.toNat / 16) + j) == (seq r)[j]?) = true ∧
    [17#8].length = (ctlAt 2 1 0 (seq 17)).len.toNat % 16 ∧
      MsgHolds (ctlAt 2 1 0 (seq 17)) (16 * ((ctlAt 2 1 0 (seq 17)).len.toNat / 16)) [17#8] ∧
    4 * (LaneIx.one.num - 1) < 4 ∧ 4 ≤ 4 * (LaneIx.two.num - 1) ∧ 4 * (LaneIx.two.num - 1) < 5 :=
  ⟨by decide, by decide, msgHolds_of (by decide), by decide, by decide, by decide⟩
theorem witness_TailX64FoldsTheTail :
    ((seq 8).length = (ctlAt 2 0 0 (seq 8)).len.toNat % 16 ∧
      MsgHolds (ctlAt 2 0 0 (seq 8)) (16 * ((ctlAt 2 0 0 (seq 8)).len.toNat / 16)) (seq 8) ∧
      1 ≤ (seq 8).length ∧ (seq 8).length ≤ 8) ∧
    ((seq 9).length = (ctlAt 2 0 0 (seq 9)).len.toNat % 16 ∧
      MsgHolds (ctlAt 2 0 0 (seq 9)) (16 * ((ctlAt 2 0 0 (seq 9)).len.toNat / 16)) (seq 9) ∧ 9 ≤ (seq 9).length) ∧
    (([] : List Byte).length = (ctlAt 2 1 0 (seq 16)).len.toNat % 16 ∧
      MsgHolds (ctlAt 2 1 0 (seq 16)) (16 * ((ctlAt 2 1 0 (seq 16)).len.toNat / 16)) []) :=
  ⟨⟨by decide, msgHolds_of (by decide), by decide, by decide⟩, ⟨by decide, msgHolds_of (by decide), by decide⟩,
    by decide, msgHolds_of (by decide)⟩
/-- Equal lanes 2, 3, 4, the inner hypotheses of the second claim about `FINAL.X86`. -/
theorem witness_FinalX86CrossesAndAvalanches : after (fun t => t.x86.h)
    (exec .finalX86 (at86 (ctlAt 3 0 0 []) (lanes4 1 1 1 1))) =
    some (lanes4 0x88c4adec#32 0x54d201b9#32 0x54d201b9#32 0x54d201b9#32) := by decide
theorem witness_ShortX64DigestsNeedNoParameter : (seq 8).length ≤ 8 ∧ ([] : List Byte).length ≤ 8 := by decide

theorem witness_SeedEntersTheBlockLoop :
    0 < ((at64 (ctlAt 0 0 0 (seq 16)) ⟨none, none⟩).ctl .x64).len.toNat / blockSize .x64 ∧
    ((at64 (ctlAt 0 0 0 (seq 15)) ⟨none, none⟩).ctl .x64).len.toNat / blockSize .x64 = 0 := by decide
/-- A block with another one after it, and a last block. -/
theorem witness_BlockAdvancesBlk :
    (((at32 (ctlAt 1 0 0 hello) (some 1)).ctl .h32).blk.toNat <
      ((at32 (ctlAt 1 0 0 hello) (some 1)).ctl .h32).len.toNat / blockSize .h32 ∧
      after (pc .h32) (exec .block32 (at32 (ctlAt 1 0 0 hello) (some 1))) = some (1, 1)) ∧
    (((at32 (ctlAt 1 2 0 hello) (some 1)).ctl .h32).blk.toNat <
      ((at32 (ctlAt 1 2 0 hello) (some 1)).ctl .h32).len.toNat / blockSize .h32 ∧
      after (pc .h32) (exec .block32 (at32 (ctlAt 1 2 0 hello) (some 1))) = some (2, 3)) := by decide
theorem witness_StartBeginsARun : (done32.ctl .h32).phase = 7 ∧ (done32.ctl .h32).seedWritten = true ∧
    (done32.ctl .h32).lenWritten = true ∧ (done32.ctl .h32).msg.length = (done32.ctl .h32).len.toNat := by decide
theorem witness_StartWhileBusyIsIgnored : (busy86.ctl .x86).phase ≠ 7 := by decide
theorem witness_OperandsAreLockedWhileBusy : (busy64.ctl .x64).phase ≠ 7 ∧ (done32.ctl .h32).phase = 7 ∧
    ∃ t, coreTurn .x64 both = .next t := ⟨by decide, by decide, _, rfl⟩
theorem witness_DigestIsValidExactlyWhileDone :
    (MachineInv busy32 ∧ (busy32.ctl .h32).done = false) ∧ (MachineInv done32 ∧ (done32.ctl .h32).done = true) ∧
    MachineInv done32 ∧ (done32.ctl .h32).phase = 7 ∧ ∃ t, hostAct (.start .h32) done32 = .next t :=
  ⟨⟨inv_busy32, by decide⟩, ⟨inv_done32, by decide⟩, inv_done32, by decide, _, rfl⟩
theorem witness_MeaninglessLaunchesAreRefused :
    ((State.reset.ctl .h32).phase = 7 ∧ (State.reset.ctl .h32).seedWritten = false) ∧
    ((at32 { ctlAt 7 0 0 hello with lenWritten := false } none).ctl .h32).lenWritten = false ∧
    (((at32 { ctlAt 7 0 0 hello with len := 12 } none).ctl .h32).phase = 7 ∧
      ((at32 { ctlAt 7 0 0 hello with len := 12 } none).ctl .h32).seedWritten = true ∧
      ((at32 { ctlAt 7 0 0 hello with len := 12 } none).ctl .h32).lenWritten = true ∧
      ((at32 { ctlAt 7 0 0 hello with len := 12 } none).ctl .h32).msg.length ≠
        ((at32 { ctlAt 7 0 0 hello with len := 12 } none).ctl .h32).len.toNat) ∧
    (busy32.ctl .h32).phase ≠ 7 := by decide
theorem long_message (n : Nat) : ∃ bytes : List Byte, n ≤ bytes.length :=
  ⟨List.replicate n 0#8, Nat.le_of_eq List.length_replicate.symm⟩
theorem witness_MeaninglessLaunches_tooLong :
    (State.reset.ctl .h32).phase = 7 ∧ ∃ bytes : List Byte, 2 ^ 32 ≤ bytes.length := ⟨by decide, long_message _⟩
theorem witness_SuppliedMessageIsRead : (State.reset.ctl .x64).phase = 7 ∧ (seq 17).length < 2 ^ 32 ∧
    ([] : List Byte).length < 2 ^ 32 := by decide
theorem witness_StepKeepsTheInvariant :
    (MachineInv busy32 ∧ ∃ t, step busy32 = .next t) ∧ (MachineInv busy86 ∧ ∃ t, step busy86 = .next t) ∧
    (MachineInv busy64 ∧ ∃ t, step busy64 = .next t) :=
  ⟨⟨inv_busy32, _, rfl⟩, ⟨inv_busy86, _, rfl⟩, inv_busy64, _, rfl⟩
theorem witness_EveryOperationCompletes :
    (Instr.stem .block32 = .block ∧ (busy32.ctl .h32).blk.toNat < (busy32.ctl .h32).len.toNat / blockSize .h32) ∧
    (Instr.stem .blockX64 = .block ∧ (busy64.ctl .x64).blk.toNat < (busy64.ctl .x64).len.toNat / blockSize .x64) ∧
    Instr.stem .tailX86 ≠ .block := by decide
theorem witness_BlockPastTheMessageStops :
    (State.reset.ctl .x86).len.toNat / blockSize .x86 ≤ (State.reset.ctl .x86).blk.toNat ∧
    ((at32 (ctlAt 1 1 0 (seq 7)) (some 1)).ctl .h32).len.toNat / blockSize .h32 ≤
      ((at32 (ctlAt 1 1 0 (seq 7)) (some 1)).ctl .h32).blk.toNat := by decide
theorem witness_BusyCoresCanAlwaysStep :
    (MachineInv busy64 ∧ (busy64.ctl .x64).phase ≠ 7) ∧ (MachineInv busy64 ∧ (busy64.ctl .h32).phase = 7) ∧
    ((at64 (ctlAt 5 0 0 []) ⟨none, none⟩).ctl .x64).phase = 5 ∧ ((at32 (ctlAt 6 0 0 []) none).ctl .h32).phase = 6 :=
  ⟨⟨inv_busy64, by decide⟩, ⟨inv_busy64, by decide⟩, by decide, by decide⟩
theorem witness_BlkNeverWraps :
    (MachineInv busy86 ∧ (busy86.ctl .x86).phase ≠ 7) ∧
    MachineInv (at64 (ctlAt 4 1 5 (seq 31)) ⟨some 1, some 2⟩) ∧
    ((at64 (ctlAt 4 1 5 (seq 31)) ⟨some 1, some 2⟩).ctl .x64).phase ≠ 7 :=
  ⟨⟨inv_busy86, by decide⟩, inv_last, by decide⟩
theorem witness_DoneIsWrittenByStartEmitAndReset :
    (∃ t, hostAct (.reset .h32) done32 = .next t) ∧
    ((done32.ctl .h32).phase = 7 ∧ ∃ t, hostAct (.start .h32) done32 = .next t) ∧
    (∃ t, exec (instrOf .x86 .emit) busy86 = .next t) ∧
    (∃ t, step (at64 (ctlAt 4 1 5 (seq 31)) ⟨some 1, some 2⟩) = .next t ∧
      (t.ctl .x64).done ≠ ((at64 (ctlAt 4 1 5 (seq 31)) ⟨some 1, some 2⟩).ctl .x64).done) ∧
    hostAct (.read .h32 .digest) done32 = .next done32 :=
  ⟨⟨_, rfl⟩, ⟨by decide, _, rfl⟩, ⟨_, rfl⟩, ⟨_, rfl, by decide⟩, rfl⟩
/-- A message, `SEED` and `LEN`, each changed by a step. -/
theorem witness_OnlyTheHostChangesOperands :
    (∃ t, step { done32 with schedule := [.host (.supply .h32 hello)] } = .next t ∧
      (t.ctl .h32).msg ≠ (done32.ctl .h32).msg) ∧
    (∃ t, step { done32 with schedule := [.host (.writeSeed .h32 0)] } = .next t ∧
      (t.ctl .h32).seed ≠ (done32.ctl .h32).seed) ∧
    (∃ t, step { done32 with schedule := [.host (.writeLen .h32 0)] } = .next t ∧
      (t.ctl .h32).len ≠ (done32.ctl .h32).len) :=
  ⟨⟨_, rfl, by decide⟩, ⟨_, rfl, by decide⟩, _, rfl, by decide⟩
/-- H32 agrees in two states that differ in X64. -/
theorem witness_CoresAreIndependent :
    SameCore .h32 busy32 both ∧ both.params = busy32.params ∧ (∃ t, coreTurn .h32 busy32 = .next t) ∧
    ∃ t, exec .block32 busy32 = .next t := ⟨rfl, rfl, ⟨_, rfl⟩, _, rfl⟩
theorem witness_StepsOfDifferentCoresCommute : CoreId.h32 ≠ .x64 ∧ (∃ t, coreTurn .h32 both = .next t) ∧
    ∃ u, coreTurn .x64 both = .next u := ⟨by decide, ⟨_, rfl⟩, _, rfl⟩

/-- H32 ready, with the turns of a run on four bytes and one more turn. -/
def launch32 : State :=
  { ready32 with schedule := .host (.start .h32) :: List.replicate 5 (.core .h32) ++ [.host .resetAll] }

theorem witness_RunTakesNblocksPlusFourSteps :
    MachineInv launch32 ∧ (launch32.ctl .h32).phase = 7 ∧ (launch32.ctl .h32).seedWritten = true ∧
    (launch32.ctl .h32).lenWritten = true ∧ (launch32.ctl .h32).msg.length = (launch32.ctl .h32).len.toNat ∧
    launch32.schedule = .host (.start .h32) ::
      List.replicate ((launch32.ctl .h32).len.toNat / blockSize .h32 + 4) (.core .h32) ++ [.host .resetAll] :=
  ⟨⟨inv_ready32.1, fun c => by cases c <;> exact inv_ready32.2 _⟩, by decide, by decide, by decide, by decide, by decide⟩
theorem witness_RunComputesTheFunction :
    (seq 4).length < 2 ^ 32 ∧ (launch32.ctl .h32).phase = 7 ∧ (launch32.ctl .h32).seedWritten = true ∧
    (launch32.ctl .h32).lenWritten = true ∧ (launch32.ctl .h32).seed = 5 ∧
    (launch32.ctl .h32).len.toNat = (seq 4).length ∧ (launch32.ctl .h32).msg = Memory.ofMessage (seq 4) ∧
    launch32.schedule = .host (.start .h32) ::
      List.replicate ((seq 4).length / blockSize .h32 + 4) (.core .h32) ++ [.host .resetAll] := by decide
theorem witness_HashCallsExpandAndReturnTheDigest :
    (seq 17).length < 2 ^ 32 ∧
    (({ State.reset with schedule := hashCall .x86 (seq 17) 1 ++ [.core .h32] } : State).ctl .x86).phase = 7 ∧
    ({ State.reset with schedule := hashCall .x86 (seq 17) 1 ++ [.core .h32] } : State).schedule =
      hashCall .x86 (seq 17) 1 ++ [.core .h32] := by decide

end Sys2Proof.Tests
end

section
/-! SUPPORT. Left rotation and little-endian assembly, position by position (00_scope.md R12, R13): O1 and O2. -/

namespace Sys2Proof.Machine

/-- Below the width, the formula of R12 is the library's rotation. -/
theorem rotl_eq_rotateLeft {w : Nat} (x : BitVec w) {r : Nat} (hr : r < w) : rotl x r = x.rotateLeft r := by
  rw [BitVec.rotateLeft_def, Nat.mod_eq_of_lt hr, rotl]

/-- A rotation by `r` carries bit `i` to place `i + r`, counted around the word: either it stays inside the word, or
it comes in again at the bottom. -/
theorem getLsbD_rotl {w : Nat} (x : BitVec w) {r i : Nat} (hr : r < w) (hi : i < w) :
    (rotl x r).getLsbD ((i + r) % w) = x.getLsbD i := by
  rw [rotl_eq_rotateLeft x hr, BitVec.getLsbD_rotateLeft, Nat.mod_eq_of_lt hr]
  by_cases hw : i + r < w
  · have hpos : (i + r) % w = i + r := Nat.mod_eq_of_lt hw
    simp [hpos, hw]
  · have hpos : (i + r) % w = i + r - w := by
      rw [Nat.mod_eq_sub_mod (by omega), Nat.mod_eq_of_lt (by omega)]
    have hlow : i + r - w < r := by omega
    have hback : w - r + (i + r - w) = i := by omega
    simp [hpos, hlow, hback]

/-- Byte `j` of a sequence weighs `2^(8j)` in its number. -/
theorem le_eq_sum (bs : List Byte) :
    le bs = ((List.range bs.length).map fun j => (bs.getD j 0).toNat * 2 ^ (8 * j)).sum := by
  induction bs with
  | nil => rfl
  | cons b bs ih =>
    have hshift (j : Nat) : ((b :: bs).getD (j + 1) 0).toNat * 2 ^ (8 * (j + 1)) =
        2 ^ 8 * ((bs.getD j 0).toNat * 2 ^ (8 * j)) := by
      rw [List.getD_cons_succ]
      ring
    rw [List.length_cons, List.range_succ_eq_map, List.map_cons, List.sum_cons, List.map_map, le_cons, ih,
      ← List.sum_map_mul_left]
    simp only [Function.comp_def, Nat.succ_eq_add_one, hshift, List.getD_cons_zero, Nat.mul_zero, Nat.pow_zero,
      Nat.mul_one]

/-- Settles O1: the first form is the model's own, the second says where the library's rotation puts each bit. -/
theorem rotlMovesEveryBitUp : Obligations.RotlMovesEveryBitUp := by
  unfold Obligations.RotlMovesEveryBitUp
  intro w x r _ hr
  exact ⟨rfl, fun i hi => getLsbD_rotl x hr hi⟩

/-- Settles O2, by induction on the byte sequence. -/
theorem littleEndianIsTheWeightedSum : Obligations.LittleEndianIsTheWeightedSum :=
  ⟨le_nil, le_eq_sum⟩

end Sys2Proof.Machine
end

section
/-! SUPPORT. Moving a core into another state (10_state.md R42): an operation does there what it did before, and from
this one equation follow both what it writes and what it reads. O56. -/

namespace Sys2Proof.Machine

/-- The state `u`, with core `c` as it is in `s`. -/
def State.withCoreOf (u : State) (c : CoreId) (s : State) : State :=
  match c with
  | .h32 => { u with h32 := s.h32 }
  | .x86 => { u with x86 := s.x86 }
  | .x64 => { u with x64 := s.x64 }

theorem State.sameCore_withCoreOf (u : State) (c : CoreId) (s : State) : SameCore c s (u.withCoreOf c s) := by
  cases c <;> rfl

theorem State.sameCore_withCoreOf_ne (u : State) {c d : CoreId} (s : State) (h : d ≠ c) :
    SameCore d u (u.withCoreOf c s) := by
  cases c <;> cases d <;> try contradiction
  all_goals rfl

theorem State.othersKept_withCoreOf (u : State) (c : CoreId) (s : State) : OthersKept c u (u.withCoreOf c s) :=
  ⟨fun _ hd => u.sameCore_withCoreOf_ne s hd, by cases c <;> rfl, by cases c <;> rfl⟩

theorem SameCore.refl (c : CoreId) (s : State) : SameCore c s s := by
  cases c <;> rfl

/-- Where the two states agree on the core, moving it changes nothing. -/
theorem SameCore.withCoreOf_eq {c : CoreId} {s u : State} (h : SameCore c s u) : u.withCoreOf c s = u := by
  cases c <;> simp only [SameCore] at h <;> simp only [State.withCoreOf, ← h]

theorem SameCore.ctl_eq {c : CoreId} {s u : State} (h : SameCore c s u) : u.ctl c = s.ctl c := by
  cases c <;> simp only [SameCore] at h <;> simp only [State.ctl, h]

/-- An operation commutes with moving its core into a state with the same parameters; a `BLOCK` looks for its bytes
in its own message space, so it also stops in the one exactly where it stops in the other. -/
theorem exec_withCoreOf (i : Instr) {s u : State} (hp : u.params = s.params) :
    exec i (u.withCoreOf i.core s) = mapNext (u.withCoreOf i.core) (exec i s) := by
  obtain ⟨s32, s86, s64, p, l⟩ := s
  obtain ⟨u32, u86, u64, p', l'⟩ := u
  obtain rfl : p' = p := hp
  cases i with
  | block32 | blockX86 | blockX64 =>
    simp only [exec, execBlock32, execBlockX86, execBlockX64, apply_ite (mapNext _)]
    rfl
  | _ => rfl

/-- The write frame: moved into the state it started from, the core's next state is the whole next state. -/
theorem exec_othersKept {i : Instr} {s t : State} (h : exec i s = .next t) : OthersKept i.core s t := by
  have hself := exec_withCoreOf i (rfl : s.params = s.params)
  rw [(SameCore.refl i.core s).withCoreOf_eq, h] at hself
  have ht : t = s.withCoreOf i.core t := Host.Outcome.next.inj hself
  rw [ht]
  exact s.othersKept_withCoreOf i.core t

/-- The read frame: a step of a core, taken in another state that agrees on the core and the parameters, brings the
core to the same next state. -/
theorem coreTurn_withCoreOf {c : CoreId} {s u t : State} (hc : SameCore c s u) (hp : u.params = s.params)
    (h : coreTurn c s = .next t) : coreTurn c u = .next (u.withCoreOf c t) := by
  obtain ⟨st, hphase, hexec⟩ := coreTurn_next h
  have hmove := exec_withCoreOf (instrOf c st) hp
  rw [core_instrOf, hc.withCoreOf_eq, hexec] at hmove
  rw [coreTurn_of_phase st (by rw [hc.ctl_eq, hphase]), hmove, mapNext]

/-- Settles O56: an operation commutes with moving its core into another state with the same parameters. -/
theorem coresAreIndependent : Obligations.CoresAreIndependent := by
  unfold Obligations.CoresAreIndependent
  refine ⟨fun i s t h => exec_othersKept h, fun c s u t hc hp h => ?_⟩
  exact ⟨u.withCoreOf c t, coreTurn_withCoreOf hc hp h, u.sameCore_withCoreOf c t⟩

end Sys2Proof.Machine
end

section
/-! SUPPORT. What one turn does to each core, said once (10_state.md R28, R29, R33, R39; 43_sequencer_host.md R181,
R194): the rules of the whole machine below are read off its seven cases. -/

namespace Sys2Proof.Machine

/-! ## A core seen through its control part, its lanes and its digest -/

theorem SameCore.lanes_eq {c : CoreId} {s u : State} (h : SameCore c s u) : u.lanes c = s.lanes c := by
  cases c <;> simp only [SameCore] at h <;> simp only [State.lanes, h]

theorem SameCore.digest_eq {c : CoreId} {s u : State} (h : SameCore c s u) : u.digest c = s.digest c := by
  cases c <;> simp only [SameCore] at h <;> simp only [State.digest, h]

@[simp] theorem State.ctl_pop (s : State) (c : CoreId) : s.pop.ctl c = s.ctl c := s.ctl_withSchedule _ c

@[simp] theorem State.lanes_pop (s : State) (c : CoreId) : s.pop.lanes c = s.lanes c := s.lanes_withSchedule _ c

@[simp] theorem State.digest_pop (s : State) (c : CoreId) : s.pop.digest c = s.digest c := s.digest_withSchedule _ c

/-! ## Updates that write one core -/

theorem othersKept_of_withCoreOf_eq {c : CoreId} {s t : State} (h : s.withCoreOf c t = t) : OthersKept c s t :=
  h ▸ s.othersKept_withCoreOf c t

theorem othersKept_setCtl (c : CoreId) (s : State) (k : Control) : OthersKept c s (s.setCtl c k) :=
  othersKept_of_withCoreOf_eq (by cases c <;> rfl)

theorem othersKept_acceptStart (c : CoreId) (s : State) : OthersKept c s (acceptStart c s) :=
  othersKept_of_withCoreOf_eq (by cases c <;> rfl)

theorem othersKept_resetCore (c : CoreId) (s : State) : OthersKept c s (resetCore c s) :=
  othersKept_of_withCoreOf_eq (by cases c <;> rfl)

/-! ## The accepted `START` and the reset, register by register -/

section
variable (c : CoreId) (s : State)

@[simp] theorem ctl_acceptStart :
    (acceptStart c s).ctl c = { s.ctl c with done := false, blk := 0, phase := 0 } := by
  simp [acceptStart, Control.setDone]

@[simp] theorem lanes_acceptStart : (acceptStart c s).lanes c = s.lanes c := by
  simp [acceptStart]

@[simp] theorem digest_acceptStart : (acceptStart c s).digest c = none := by
  simp [acceptStart]

@[simp] theorem resetCore_phase : ((resetCore c s).ctl c).phase = 7 := by
  simp [resetCore, idlePhase]

@[simp] theorem resetCore_done : ((resetCore c s).ctl c).done = false := by
  simp [resetCore]

@[simp] theorem resetCore_msg : ((resetCore c s).ctl c).msg = (s.ctl c).msg := by
  simp [resetCore]

@[simp] theorem resetCore_seedWritten : ((resetCore c s).ctl c).seedWritten = false := by
  simp [resetCore]

@[simp] theorem resetCore_lenWritten : ((resetCore c s).ctl c).lenWritten = false := by
  simp [resetCore]

@[simp] theorem digest_resetCore : (resetCore c s).digest c = none := by
  simp [resetCore]

theorem lanes_resetCore : ∀ o ∈ (resetCore c s).lanes c, o = none := by
  rw [resetCore, State.lanes_dropDigest]
  exact State.lanes_dropLanes _ c

/-- The reset of all is, on each core, the reset of that core (R230). -/
theorem sameCore_resetEvery : SameCore c (resetCore c s) (resetEvery s) := by
  cases c <;> rfl

theorem params_resetEvery : (resetEvery s).params = s.params := by
  simp [resetEvery, (othersKept_resetCore _ _).2.1]

theorem schedule_resetEvery : (resetEvery s).schedule = s.schedule := by
  simp [resetEvery, (othersKept_resetCore _ _).2.2]

end

/-! ## The effect of a turn on one core -/

/-- What a turn can do to core `c` of `s`: the state whose core `c` is the core after the turn. -/
inductive CoreEffect (c : CoreId) (s : State) : Turn → State → Prop where
  | kept (τ : Turn) : CoreEffect c s τ s
  | op (st : Stem) (t : State) : (s.ctl c).phase = opCode st → exec (instrOf c st) s = .next t →
      CoreEffect c s (.core c) t
  | writeSeed (v : Word32) : (s.ctl c).phase = 7 →
      CoreEffect c s (.host (.writeSeed c v)) (s.setCtl c { s.ctl c with seed := v, seedWritten := true })
  | writeLen (v : Word32) : (s.ctl c).phase = 7 →
      CoreEffect c s (.host (.writeLen c v)) (s.setCtl c { s.ctl c with len := v, lenWritten := true })
  | supply (bytes : List Byte) : (s.ctl c).phase = 7 → bytes.length < 2 ^ 32 →
      CoreEffect c s (.host (.supply c bytes)) (s.setCtl c { s.ctl c with msg := Memory.ofMessage bytes })
  | start : (s.ctl c).phase = 7 → (s.ctl c).seedWritten = true → (s.ctl c).lenWritten = true →
      (s.ctl c).msg.length = (s.ctl c).len.toNat →
      CoreEffect c s (.host (.start c)) (acceptStart c s)
  | reset (a : HostAction) : a = .reset c ∨ a = .resetAll → CoreEffect c s (.host a) (resetCore c s)

/-- What a turn can do to the machine: it leaves the parameters alone, and each core ends as one of the effects. -/
def TurnEffect (s : State) (τ : Turn) (t : State) : Prop :=
  t.params = s.params ∧ ∀ c, ∃ u, CoreEffect c s τ u ∧ SameCore c u t

/-- A turn that writes one core is told by its effect on that core. -/
theorem TurnEffect.of_othersKept {c : CoreId} {s t : State} {τ : Turn} (hframe : OthersKept c s t)
    (heffect : CoreEffect c s τ t) : TurnEffect s τ t := by
  obtain ⟨hcores, hparams, -⟩ := hframe
  refine ⟨hparams, fun d => ?_⟩
  by_cases hd : d = c
  · subst hd
    exact ⟨t, heffect, .refl d t⟩
  · exact ⟨s, .kept τ, hcores d hd⟩

theorem hostAct_effect {a : HostAction} {s t : State} (h : hostAct a s = .next t) : TurnEffect s (.host a) t := by
  obtain rfl | ⟨c, v, rfl, hidle, rfl⟩ | ⟨c, v, rfl, hidle, rfl⟩ | ⟨c, bytes, rfl, hidle, hlt, rfl⟩ |
    ⟨c, rfl, hidle, hseed, hlen, hmsg, rfl⟩ | ⟨c, rfl, rfl⟩ | ⟨rfl, rfl⟩ := hostAct_next h
  · exact ⟨rfl, fun c => ⟨t, .kept _, .refl c t⟩⟩
  · exact .of_othersKept (othersKept_setCtl c s _) (.writeSeed v hidle)
  · exact .of_othersKept (othersKept_setCtl c s _) (.writeLen v hidle)
  · exact .of_othersKept (othersKept_setCtl c s _) (.supply bytes hidle hlt)
  · exact .of_othersKept (othersKept_acceptStart c s) (.start hidle hseed hlen hmsg)
  · exact .of_othersKept (othersKept_resetCore c s) (.reset _ (.inl rfl))
  · exact ⟨params_resetEvery s, fun c => ⟨_, .reset _ (.inr rfl), sameCore_resetEvery c s⟩⟩

theorem coreTurn_effect {c : CoreId} {s t : State} (h : coreTurn c s = .next t) : TurnEffect s (.core c) t := by
  obtain ⟨st, hphase, hexec⟩ := coreTurn_next h
  have hframe := exec_othersKept hexec
  rw [core_instrOf] at hframe
  exact .of_othersKept hframe (.op st t hphase hexec)

/-- With an empty schedule there is no turn to take off it. -/
theorem State.pop_of_schedule_nil {s : State} (h : s.schedule = []) : s.pop = s := by
  obtain ⟨h32, x86, x64, params, schedule⟩ := s
  cases h
  rfl

/-- A step has the effect of the turn it takes. -/
theorem step_effect {s t : State} (h : step s = .next t) : ∃ τ, turnOf s = some τ ∧ TurnEffect s.pop τ t := by
  obtain ⟨a, rest, hs, h⟩ | ⟨c, rest, hs, h⟩ | ⟨c, hs, hbusy, h⟩ := step_next h
  · exact ⟨.host a, by simp [turnOf, hs], hostAct_effect (by simpa [State.pop, hs] using h)⟩
  · exact ⟨.core c, by simp [turnOf, hs], coreTurn_effect (by simpa [State.pop, hs] using h)⟩
  · exact ⟨.core c, by simp [turnOf, hs, hbusy], coreTurn_effect (by rw [State.pop_of_schedule_nil hs, h])⟩

/-! ## An operation on the control part, the lanes and the digest of its core -/

section
variable (st : Stem) (bs : Nat) (k : Control)

theorem OperandsKept.refl : OperandsKept k k := ⟨rfl, rfl, rfl, rfl, fun _ => rfl⟩

@[simp] theorem ctlAfter_seed : (ctlAfter st bs k).seed = k.seed := by cases st <;> rfl
@[simp] theorem ctlAfter_len : (ctlAfter st bs k).len = k.len := by cases st <;> rfl
@[simp] theorem ctlAfter_msg : (ctlAfter st bs k).msg = k.msg := by cases st <;> rfl
@[simp] theorem ctlAfter_seedWritten : (ctlAfter st bs k).seedWritten = k.seedWritten := by cases st <;> rfl
@[simp] theorem ctlAfter_lenWritten : (ctlAfter st bs k).lenWritten = k.lenWritten := by cases st <;> rfl

theorem ctlAfter_operandsKept : OperandsKept k (ctlAfter st bs k) := by
  simp [OperandsKept]

/-- `EMIT` writes `DONE` and no other operation does (R33). -/
theorem ctlAfter_done : (ctlAfter st bs k).done = if st = .emit then true else k.done := by
  cases st <;> rfl

/-- Any operation but `EMIT` leaves its core between `SEED` and `EMIT` (R182 to R185). -/
theorem ctlAfter_phase_in_run {st : Stem} (h : st ≠ .emit) :
    (ctlAfter st bs k).phase = 1 ∨ (ctlAfter st bs k).phase = 2 ∨ (ctlAfter st bs k).phase = 3 ∨
      (ctlAfter st bs k).phase = 4 := by
  cases st with
  | seed | block =>
    simp only [ctlAfter, Control.draw_phase, Control.afterSeed_phase, Control.afterBlock_phase]
    split <;> simp
  | tail | final => simp [ctlAfter]
  | emit => contradiction

end

theorem exec_instrOf_ctl {c : CoreId} {st : Stem} {s t : State} (h : exec (instrOf c st) s = .next t) :
    t.ctl c = ctlAfter st (blockSize c) (s.ctl c) := by
  simpa using exec_ctl h

/-- `EMIT` takes the values of the lanes and gives `DIGEST` one. -/
theorem exec_emit_values {c : CoreId} {s t : State} (h : exec (instrOf c .emit) s = .next t) :
    (∀ o ∈ t.lanes c, o = none) ∧ (t.digest c).isSome = true := by
  cases c with
  | h32 =>
    obtain ⟨-, -, -, hemit, -⟩ := exec_next_h32 rfl h
    simpa [State.lanes, State.digest] using hemit rfl
  | x86 =>
    obtain ⟨-, -, -, hemit, -⟩ := exec_next_x86 rfl h
    obtain ⟨hlanes, hdigest⟩ := hemit rfl
    simpa [State.lanes, State.digest, hdigest] using ⟨hlanes .one, hlanes .two, hlanes .three, hlanes .four⟩
  | x64 =>
    obtain ⟨-, -, -, hemit, -⟩ := exec_next_x64 rfl h
    obtain ⟨hlanes, hdigest⟩ := hemit rfl
    simp [State.lanes, State.digest, hlanes, hdigest]

/-- The other operations leave `DIGEST` alone and the lanes with values: `SEED`, `BLOCK` and `FINAL` write them all,
`TAIL` keeps those it does not reach. -/
theorem exec_lanes_values {c : CoreId} {st : Stem} {s t : State} (hst : st ≠ .emit)
    (h : exec (instrOf c st) s = .next t) :
    t.digest c = s.digest c ∧
      ((st = .tail → ∀ o ∈ s.lanes c, o.isSome = true) → ∀ o ∈ t.lanes c, o.isSome = true) := by
  cases c with
  | h32 =>
    obtain ⟨-, -, -, -, hdigest, hlanes⟩ := exec_next_h32 (core_instrOf .h32 st) h
    rw [stem_instrOf] at hdigest hlanes
    refine ⟨by simp only [State.digest, hdigest hst], fun hs => ?_⟩
    simpa [State.lanes] using hlanes hst fun htail => by simpa [State.lanes] using hs htail
  | x86 =>
    obtain ⟨-, -, -, -, hdigest, hlanes⟩ := exec_next_x86 (core_instrOf .x86 st) h
    rw [stem_instrOf] at hdigest hlanes
    refine ⟨by simp only [State.digest, hdigest hst], fun hs => ?_⟩
    have hall := hlanes hst fun htail j => by
      have hs := hs htail
      simp only [State.lanes, List.map_cons, List.map_nil, List.forall_mem_cons, Option.isSome_map] at hs
      obtain ⟨h1, h2, h3, h4, -⟩ := hs
      cases j <;> assumption
    simpa [State.lanes] using ⟨hall .one, hall .two, hall .three, hall .four⟩
  | x64 =>
    obtain ⟨-, -, -, -, hdigest, hlanes⟩ := exec_next_x64 (core_instrOf .x64 st) h
    rw [stem_instrOf] at hdigest hlanes
    refine ⟨by simp only [State.digest, hdigest hst], fun hs => ?_⟩
    simpa [State.lanes] using hlanes hst fun htail => by simpa [State.lanes] using hs htail

end Sys2Proof.Machine
end

section
/-! SUPPORT. The invariant (10_state.md R24, R29, R31, R32, R34): its form for an idle core and for a core in a run, and
that every effect of a turn keeps it. O48, O49, O53. -/

namespace Sys2Proof.Machine

/-! ## The invariant of the control part -/

/-- A control part in a run: launched on a message of `LEN` bytes, and `BLK` where `PHASE` says. -/
def Control.InRun (bs : Nat) (k : Control) : Prop :=
  k.done = false ∧ k.msg.length = k.len.toNat ∧ k.seedWritten = true ∧ k.lenWritten = true ∧
  ((k.phase = 0 ∧ k.blk = 0) ∨ (k.phase = 1 ∧ k.blk.toNat < nblocks bs k.len) ∨
    ((k.phase = 2 ∨ k.phase = 3 ∨ k.phase = 4) ∧ k.blk.toNat = nblocks bs k.len))

theorem phase_eq_of_le_four : ∀ p : BitVec 3, p.toNat ≤ 4 → p = 0 ∨ p = 1 ∨ p = 2 ∨ p = 3 ∨ p = 4 := by
  decide

/-- The invariant's clauses, sorted into those that always hold and the two kinds of phase: idle, and in a run. -/
theorem controlInv_iff (bs : Nat) (k : Control) :
    ControlInv bs k ↔ Memory.isMessage k.msg = true ∧ k.msg.length < 2 ^ 32 ∧ (k.phase = 7 ∨ k.InRun bs) := by
  constructor
  · rintro ⟨hmsg, hlt, hphase, hbusy, h0, h1, hlast⟩
    refine ⟨hmsg, hlt, hphase.imp_right fun hle => ?_⟩
    obtain ⟨hdone, hlen, hsw, hlw⟩ := hbusy fun h => by simp [h] at hle
    refine ⟨hdone, hlen, hsw, hlw, ?_⟩
    rcases phase_eq_of_le_four k.phase hle with h | h | h
    · exact .inl ⟨h, h0 h⟩
    · exact .inr (.inl ⟨h, h1 h⟩)
    · exact .inr (.inr ⟨h, hlast h⟩)
  · rintro ⟨hmsg, hlt, hidle | ⟨hdone, hlen, hsw, hlw, ⟨h, hb⟩ | ⟨h, hb⟩ | ⟨h | h | h, hb⟩⟩⟩
    · simpa [ControlInv, hmsg, hidle] using hlt
    all_goals simpa [ControlInv, hmsg, hdone, hlen, hsw, hlw, h, nblocks] using ⟨hlen ▸ hlt, hb⟩

theorem ControlInv.inRun {bs : Nat} {k : Control} (h : ControlInv bs k) (hbusy : k.phase ≠ 7) : k.InRun bs :=
  ((controlInv_iff bs k).mp h).2.2.resolve_left hbusy

/-- In an idle core only the message counts, so the operands may be rewritten. -/
theorem ControlInv.of_idle {bs : Nat} {k k' : Control} (h : ControlInv bs k) (hmsg : k'.msg = k.msg)
    (hidle : k'.phase = 7) : ControlInv bs k' := by
  obtain ⟨hmessage, hlt, -⟩ := (controlInv_iff bs k).mp h
  exact (controlInv_iff bs k').mpr ⟨hmsg ▸ hmessage, hmsg ▸ hlt, .inl hidle⟩

/-- The operation of the phase moves `pc` to where the next phase wants it (R182 to R186): the case to see is `BLOCK`,
whose new `BLK` has either a block left or reached `nblocks`. -/
theorem ctlAfter_inRun {bs : Nat} {k : Control} {st : Stem} (h : k.InRun bs) (hphase : k.phase = opCode st)
    (hst : st ≠ .emit) : (ctlAfter st bs k).InRun bs := by
  obtain ⟨hdone, hlen, hsw, hlw, hpc⟩ := h
  refine ⟨by simp [ctlAfter_done, hst, hdone], by simpa using hlen, by simpa using hsw, by simpa using hlw, .inr ?_⟩
  rw [hphase] at hpc
  cases st with
  | seed =>
    by_cases hn : 0 < nblocks bs k.len
    · exact .inl (by simp [ctlAfter, hn])
    · exact .inr (by simp [ctlAfter, Nat.eq_zero_of_not_pos hn])
  | block =>
    have hblk : k.blk.toNat < nblocks bs k.len := by simpa [opCode] using hpc
    have hn : nblocks bs k.len < 2 ^ 32 := Nat.lt_of_le_of_lt (Nat.div_le_self ..) k.len.isLt
    have hnext : (k.blk + 1).toNat = k.blk.toNat + 1 := by bv_omega
    have hphase' : (ctlAfter .block bs k).phase = if k.blk.toNat + 1 < nblocks bs k.len then 1 else 2 := by
      rw [← hnext]; rfl
    have hblk' : (ctlAfter .block bs k).blk.toNat = k.blk.toNat + 1 := hnext
    rw [hphase', hblk', ctlAfter_len]
    by_cases hmore : k.blk.toNat + 1 < nblocks bs k.len
    · exact .inl ⟨if_pos hmore, hmore⟩
    · exact .inr ⟨.inl (if_neg hmore), by omega⟩
  | tail | final => exact .inr (by simpa [ctlAfter, opCode] using hpc)
  | emit => contradiction

theorem ctlAfter_controlInv {bs : Nat} {k : Control} {st : Stem} (h : ControlInv bs k)
    (hphase : k.phase = opCode st) : ControlInv bs (ctlAfter st bs k) := by
  by_cases hst : st = .emit
  · subst hst
    exact h.of_idle rfl rfl
  · have hbusy : k.phase ≠ 7 := by rw [hphase]; cases st <;> decide
    rw [controlInv_iff]
    obtain ⟨hmsg, hlt, -⟩ := (controlInv_iff bs k).mp h
    simpa using ⟨hmsg, hlt, .inr (ctlAfter_inRun (h.inRun hbusy) hphase hst)⟩

/-! ## The invariant of the lanes -/

theorem lanesInv_of_none {p : BitVec 3} {lanes : List (Option Word64)} (hp : p = 0 ∨ p = 7)
    (h : ∀ o ∈ lanes, o = none) : LanesInv p lanes :=
  ⟨fun hp' => by rcases hp with rfl | rfl <;> simp at hp', fun _ => h⟩

theorem lanesInv_of_some {p : BitVec 3} {lanes : List (Option Word64)} (hp : p = 1 ∨ p = 2 ∨ p = 3 ∨ p = 4)
    (h : ∀ o ∈ lanes, o.isSome = true) : LanesInv p lanes :=
  ⟨fun _ => h, fun hp' => by rcases hp with rfl | rfl | rfl | rfl <;> simp at hp'⟩

/-! ## Every effect of a turn keeps the invariant of its core -/

theorem CoreInv.of_sameCore {c : CoreId} {s t : State} (h : CoreInv c s) (hsame : SameCore c s t) : CoreInv c t := by
  rwa [CoreInv, hsame.ctl_eq, hsame.lanes_eq, hsame.digest_eq]

theorem exec_coreInv {c : CoreId} {st : Stem} {s t : State} (h : CoreInv c s) (hphase : (s.ctl c).phase = opCode st)
    (hexec : exec (instrOf c st) s = .next t) : CoreInv c t := by
  obtain ⟨hctl, hlanes, hdigest⟩ := h
  have hafter := exec_instrOf_ctl hexec
  refine ⟨hafter ▸ ctlAfter_controlInv hctl hphase, ?_, ?_⟩
  · by_cases hst : st = .emit
    · subst hst
      exact lanesInv_of_none (.inr (by rw [hafter]; rfl)) (exec_emit_values hexec).1
    · have htail : st = .tail → ∀ o ∈ s.lanes c, o.isSome = true := by
        rintro rfl
        exact hlanes.1 (.inr (.inl hphase))
      exact lanesInv_of_some (hafter ▸ ctlAfter_phase_in_run _ _ hst) ((exec_lanes_values hst hexec).2 htail)
  · rw [hafter, ctlAfter_done]
    by_cases hst : st = .emit
    · subst hst
      exact (exec_emit_values hexec).2
    · rw [(exec_lanes_values hst hexec).1, if_neg hst, hdigest]

/-- Rewriting the control part without leaving the phase or touching `DONE`. -/
theorem setCtl_coreInv {c : CoreId} {s : State} {k : Control} (h : CoreInv c s) (hctl : ControlInv (blockSize c) k)
    (hphase : k.phase = (s.ctl c).phase) (hdone : k.done = (s.ctl c).done) : CoreInv c (s.setCtl c k) := by
  obtain ⟨-, hlanes, hdigest⟩ := h
  exact ⟨by simpa using hctl, by simpa [hphase] using hlanes, by simpa [hdone] using hdigest⟩

theorem CoreEffect.coreInv {c : CoreId} {s u : State} {τ : Turn} (heffect : CoreEffect c s τ u) (h : CoreInv c s) :
    CoreInv c u := by
  have ⟨hctl, hlanes, _⟩ := h
  obtain ⟨hmsg, hlt, -⟩ := (controlInv_iff _ _).mp hctl
  cases heffect with
  | kept => exact h
  | op st t hphase hexec => exact exec_coreInv h hphase hexec
  | writeSeed v hidle => exact setCtl_coreInv h (hctl.of_idle rfl hidle) rfl rfl
  | writeLen v hidle => exact setCtl_coreInv h (hctl.of_idle rfl hidle) rfl rfl
  | supply bytes hidle hbytes =>
    exact setCtl_coreInv h ((controlInv_iff _ _).mpr ⟨by simp, by simpa using hbytes, .inl hidle⟩) rfl rfl
  | start hidle hseed hlen hlength =>
    have hrun : ((acceptStart c s).ctl c).InRun (blockSize c) := by
      simp [Control.InRun, hseed, hlen, hlength]
    refine ⟨(controlInv_iff _ _).mpr ⟨by simpa using hmsg, by simpa using hlt, .inr hrun⟩, ?_, by simp⟩
    exact lanesInv_of_none (.inl (by simp)) (by simpa using hlanes.2 (.inr hidle))
  | reset a ha =>
    exact ⟨hctl.of_idle (by simp) (by simp), lanesInv_of_none (.inr (by simp)) (lanes_resetCore c s), by simp⟩

theorem TurnEffect.machineInv {s t : State} {τ : Turn} (heffect : TurnEffect s τ t) (h : MachineInv s) :
    MachineInv t := by
  obtain ⟨hparams, hcores⟩ := heffect
  refine ⟨hparams ▸ h.1, fun c => ?_⟩
  obtain ⟨u, hu, hsame⟩ := hcores c
  exact (hu.coreInv (h.2 c)).of_sameCore hsame

theorem MachineInv.pop {s : State} (h : MachineInv s) : MachineInv s.pop :=
  ⟨h.1, fun c => by simpa [CoreInv] using h.2 c⟩

/-- Settles O49: each core ends a step as one of the effects of the turn, and each effect keeps the invariant. -/
theorem stepKeepsTheInvariant : Obligations.StepKeepsTheInvariant := by
  unfold Obligations.StepKeepsTheInvariant
  intro s t h hstep
  obtain ⟨τ, -, heffect⟩ := step_effect hstep
  exact heffect.machineInv h.pop

theorem reset_ctl (c : CoreId) : State.reset.ctl c = Control.reset := by
  cases c <;> rfl

theorem reset_digest (c : CoreId) : State.reset.digest c = none := by
  cases c <;> rfl

theorem reset_lanes (c : CoreId) : ∀ o ∈ State.reset.lanes c, o = none := by
  cases c <;> simp [State.lanes, State.reset]

theorem reset_coreInv (c : CoreId) : CoreInv c State.reset := by
  rw [CoreInv, reset_ctl, reset_digest]
  exact ⟨(controlInv_iff _ _).mpr ⟨rfl, by decide, .inl rfl⟩, lanesInv_of_none (.inr rfl) (reset_lanes c), rfl⟩

/-- Settles O48: every core is idle and without values there, which is all the invariant asks of an idle core. -/
theorem resetStateMeetsTheInvariant : Obligations.ResetStateMeetsTheInvariant :=
  ⟨⟨by decide, reset_coreInv⟩,
    fun c => ⟨by rw [reset_ctl]; rfl, by rw [reset_ctl]; rfl, reset_digest c, reset_lanes c⟩⟩

theorem Control.InRun.blk_le {bs : Nat} {k : Control} (h : k.InRun bs) : k.blk.toNat ≤ nblocks bs k.len := by
  obtain ⟨-, -, -, -, ⟨-, hblk⟩ | ⟨-, hblk⟩ | ⟨-, hblk⟩⟩ := h
  · simp [hblk]
  · exact Nat.le_of_lt hblk
  · exact Nat.le_of_eq hblk

/-- `LEN` is below `2^32`, so a message has fewer than `2^30` blocks of 4 bytes and `2^28` of 16 (R27). -/
theorem nblocks_le (c : CoreId) (len : Word32) :
    nblocks (blockSize c) len ≤ if c = .h32 then 2 ^ 30 - 1 else 2 ^ 28 - 1 := by
  have := len.isLt
  cases c <;> simp only [nblocks, blockSize, reduceCtorEq, if_true, if_false] <;> omega

/-- Settles O53: in a run `BLK` is at most `nblocks`, and that is far below the width of `BLK`. -/
theorem blkNeverWraps : Obligations.BlkNeverWraps := by
  unfold Obligations.BlkNeverWraps
  intro c s h hbusy
  have hle := ((h.2 c).1.inRun hbusy).blk_le
  have hn := nblocks_le c (s.ctl c).len
  refine ⟨hle, hn, ?_⟩
  have hsmall : (s.ctl c).blk.toNat < 2 ^ 30 := by split at hn <;> omega
  bv_omega

end Sys2Proof.Machine
end

section
/-! SUPPORT. The host's view of the registers (10_state.md R28, R29, R33, R38, R39): reads, `START` and reset, and who
writes what. O36, O43, O44, O47, O54, O55. -/

namespace Sys2Proof.Machine

/-! ## Host reads and `START` -/

theorem hostAct_read_ok {c : CoreId} {port : ReadPort} {s : State} {v : ReadValue} (h : hostRead c port s = .ok v) :
    hostAct (.read c port) s = .next s := by
  simp [hostAct, readTurn, h]

theorem hostAct_read_error {c : CoreId} {port : ReadPort} {s : State} {r : Refusal}
    (h : hostRead c port s = .error r) : hostAct (.read c port) s = .refused r := by
  simp [hostAct, readTurn, h]

/-- A read that is not refused has no side effect (R28, R33). -/
theorem hostAct_read_next {c : CoreId} {port : ReadPort} {s t : State} (h : hostAct (.read c port) s = .next t) :
    t = s := by
  cases hread : hostRead c port s with
  | ok v => exact (Host.Outcome.next.inj ((hostAct_read_ok hread).symm.trans h)).symm
  | error r => cases (hostAct_read_error hread).symm.trans h

theorem hostRead_digest_of_not_done {c : CoreId} {s : State} (h : (s.ctl c).done = false) :
    hostRead c .digest s = .error (.digestHasNoValue c) := by
  simp [hostRead, h]

theorem hostRead_digest_of_done {c : CoreId} {s : State} {d : Digest} (hdone : (s.ctl c).done = true)
    (hd : s.digest c = some d) : hostRead c .digest s = .ok (.digest d) := by
  simp [hostRead, hdone, hd]

/-- A `START` while idle is refused or accepted, never ignored. -/
theorem pulseStart_next_of_idle {c : CoreId} {s t : State} (hidle : (s.ctl c).phase = 7)
    (h : pulseStart c s = .next t) : t = acceptStart c s := by
  simp only [pulseStart, (Control.not_busy_iff _).mpr hidle, Bool.false_eq_true, if_false] at h
  split at h
  · cases h
  · split at h
    · cases h
    · exact (Host.Outcome.next.inj h).symm

theorem pulseStart_of_seed_not_written {c : CoreId} {s : State} (hidle : (s.ctl c).phase = 7)
    (hseed : (s.ctl c).seedWritten = false) : pulseStart c s = .refused (.operandsNotWritten c) := by
  simp [pulseStart, (Control.not_busy_iff _).mpr hidle, hseed]

/-! ## The rules -/

/-- A step of any core leaves the operands of every core as they are (R28, R62). -/
theorem coreTurn_operandsKept {d : CoreId} {s t : State} (h : coreTurn d s = .next t) (c : CoreId) :
    OperandsKept (s.ctl c) (t.ctl c) := by
  obtain ⟨st, -, hexec⟩ := coreTurn_next h
  by_cases hc : c = d
  · subst hc
    rw [exec_instrOf_ctl hexec]
    exact ctlAfter_operandsKept st _ _
  · have hsame : SameCore c s t := (exec_othersKept hexec).1 c (by simpa using hc)
    rw [hsame.ctl_eq]
    exact .refl _

/-- Settles O43: the host's writes look at `BUSY` alone, and an operation has no way to an operand. -/
theorem operandsAreLockedWhileBusy : Obligations.OperandsAreLockedWhileBusy := by
  unfold Obligations.OperandsAreLockedWhileBusy
  intro c s
  refine ⟨fun hbusy v => ?_, fun hidle v => ?_, rfl, rfl, hostAct_read_ok rfl, hostAct_read_ok rfl,
    fun d t h => coreTurn_operandsKept h c⟩
  · have hb := (Control.busy_iff (s.ctl c)).mpr hbusy
    simp [hostAct, writeSeed, writeLen, hb]
  · have hb := (Control.not_busy_iff (s.ctl c)).mpr hidle
    simp [hostAct, writeSeed, writeLen, hb]

/-- Settles O44: the invariant ties the value of `DIGEST` to `DONE`, and a read looks at both. -/
theorem digestIsValidExactlyWhileDone : Obligations.DigestIsValidExactlyWhileDone := by
  unfold Obligations.DigestIsValidExactlyWhileDone
  intro c s h
  obtain ⟨-, -, hdigest⟩ := h.2 c
  refine ⟨fun hdone => ?_, fun hdone => ?_, fun t hidle hstart => ?_⟩
  · have hread := hostRead_digest_of_not_done hdone
    exact ⟨by simpa [hdone] using hdigest, hread, hostAct_read_error hread⟩
  · obtain ⟨d, hd⟩ := Option.isSome_iff_exists.mp (hdigest.trans hdone)
    have hread := hostRead_digest_of_done hdone hd
    exact ⟨d, hd, hread, hostAct_read_ok hread⟩
  · rw [pulseStart_next_of_idle hidle hstart, digest_acceptStart]

/-- A turn writes `DONE` of a core only as `START`, as a reset or as `EMIT` (R33). -/
theorem CoreEffect.done_changed {c : CoreId} {s u : State} {τ : Turn} (h : CoreEffect c s τ u)
    (hne : (u.ctl c).done ≠ (s.ctl c).done) :
    τ = .host (.start c) ∨ τ = .host (.reset c) ∨ τ = .host .resetAll ∨ (τ = .core c ∧ (s.ctl c).phase = 4) := by
  cases h with
  | kept => exact absurd rfl hne
  | op st t hphase hexec =>
    have hemit : st = .emit := by
      by_contra hst
      exact hne (by rw [exec_instrOf_ctl hexec, ctlAfter_done, if_neg hst])
    exact .inr (.inr (.inr ⟨rfl, by rw [hphase, hemit]; rfl⟩))
  | writeSeed | writeLen | supply => exact absurd (by simp) hne
  | start => exact .inl rfl
  | reset a ha => rcases ha with rfl | rfl <;> simp

/-- Settles O54: the effects of a turn show the writers of `DONE`; a read is no turn that changes a state. -/
theorem doneIsWrittenByStartEmitAndReset : Obligations.DoneIsWrittenByStartEmitAndReset := by
  unfold Obligations.DoneIsWrittenByStartEmitAndReset
  refine ⟨?_, fun c s t h => ?_, fun c s t hstep hne => ?_,
    fun c s t => ⟨rfl, rfl, hostAct_read_ok rfl, hostAct_read_ok rfl, hostAct_read_next⟩⟩
  · rintro c s t (hreset | ⟨hidle, hstart⟩)
    · cases hreset
      exact resetCore_done c s
    · rw [pulseStart_next_of_idle hidle hstart, ctl_acceptStart]
  · rw [exec_instrOf_ctl h, ctlAfter_done, if_pos rfl]
  · obtain ⟨τ, hτ, -, hcores⟩ := step_effect hstep
    obtain ⟨u, hu, hsame⟩ := hcores c
    rw [hsame.ctl_eq] at hne
    simpa [hτ] using hu.done_changed (by simpa using hne)

/-- A turn changes the message of a core only as the host's supply to the idle core (R62, R240). -/
theorem CoreEffect.msg_changed {c : CoreId} {s u : State} {τ : Turn} (h : CoreEffect c s τ u)
    (hne : (u.ctl c).msg ≠ (s.ctl c).msg) : (s.ctl c).phase = 7 ∧ ∃ bytes, τ = .host (.supply c bytes) := by
  cases h with
  | supply bytes hidle => exact ⟨hidle, bytes, rfl⟩
  | op st t hphase hexec => exact absurd (by rw [exec_instrOf_ctl hexec, ctlAfter_msg]) hne
  | kept | writeSeed | writeLen | start | reset => exact absurd (by simp) hne

/-- A turn changes `SEED` of a core only as a reset or as the host's write to the idle core (R28). -/
theorem CoreEffect.seed_changed {c : CoreId} {s u : State} {τ : Turn} (h : CoreEffect c s τ u)
    (hne : (u.ctl c).seed ≠ (s.ctl c).seed) :
    τ = .host (.reset c) ∨ τ = .host .resetAll ∨
      ((s.ctl c).phase = 7 ∧ τ = .host (.writeSeed c (u.ctl c).seed)) := by
  cases h with
  | writeSeed v hidle => exact .inr (.inr ⟨hidle, by simp⟩)
  | reset a ha => rcases ha with rfl | rfl <;> simp
  | op st t hphase hexec => exact absurd (by rw [exec_instrOf_ctl hexec, ctlAfter_seed]) hne
  | kept | writeLen | supply | start => exact absurd (by simp) hne

/-- A turn changes `LEN` of a core only as a reset or as the host's write to the idle core (R28). -/
theorem CoreEffect.len_changed {c : CoreId} {s u : State} {τ : Turn} (h : CoreEffect c s τ u)
    (hne : (u.ctl c).len ≠ (s.ctl c).len) :
    τ = .host (.reset c) ∨ τ = .host .resetAll ∨
      ((s.ctl c).phase = 7 ∧ τ = .host (.writeLen c (u.ctl c).len)) := by
  cases h with
  | writeLen v hidle => exact .inr (.inr ⟨hidle, by simp⟩)
  | reset a ha => rcases ha with rfl | rfl <;> simp
  | op st t hphase hexec => exact absurd (by rw [exec_instrOf_ctl hexec, ctlAfter_len]) hne
  | kept | writeSeed | supply | start => exact absurd (by simp) hne

/-- Settles O55: operand by operand, from the effects of the turn the step takes. -/
theorem onlyTheHostChangesOperands : Obligations.OnlyTheHostChangesOperands := by
  unfold Obligations.OnlyTheHostChangesOperands
  intro c s t hstep
  obtain ⟨τ, hτ, hparams, hcores⟩ := step_effect hstep
  obtain ⟨u, hu, hsame⟩ := hcores c
  rw [hsame.ctl_eq, hτ]
  simp only [Option.some.injEq, ← s.ctl_pop c]
  exact ⟨hparams, hu.msg_changed, hu.seed_changed, hu.len_changed⟩

/-- Settles O47: register by register, and core by core for the reset of all. -/
theorem resetReachesTheResetState : Obligations.ResetReachesTheResetState := by
  unfold Obligations.ResetReachesTheResetState
  intro s
  refine ⟨fun c => ⟨resetCore c s, rfl, ?_⟩, resetEvery s, rfl, params_resetEvery s, schedule_resetEvery s,
    fun c => ⟨resetCore c s, rfl, sameCore_resetEvery c s⟩⟩
  have hrefused : hostAct (.start c) (resetCore c s) = .refused (.operandsNotWritten c) :=
    pulseStart_of_seed_not_written (resetCore_phase c s) (resetCore_seedWritten c s)
  exact ⟨resetCore_phase c s, resetCore_done c s, lanes_resetCore c s, digest_resetCore c s, resetCore_msg c s,
    resetCore_seedWritten c s, resetCore_lenWritten c s, hrefused, othersKept_resetCore c s⟩

/-! ## The 32-bit view of a 64-bit word -/

theorem toNat_lowWord (x : Word64) : (x.extractLsb' 0 32).toNat = x.toNat % 2 ^ 32 := by
  rw [BitVec.extractLsb'_toNat, Nat.shiftRight_zero]

theorem toNat_highWord (x : Word64) : (x.extractLsb' 32 32).toNat = x.toNat / 2 ^ 32 := by
  rw [BitVec.extractLsb'_toNat, Nat.shiftRight_eq_div_pow, Nat.mod_eq_of_lt (by omega)]

/-- Settles O36: the low and the high word of each lane. -/
theorem x64DigestSplitsLowHigh : Obligations.X64DigestSplitsLowHigh := fun d =>
  ⟨toNat_lowWord d.v1, toNat_highWord d.v1, toNat_lowWord d.v2, toNat_highWord d.v2⟩

end Sys2Proof.Machine
end

section
/-! SUPPORT. The message space as the operations see it (20_memory.md): the numbers they read, the bytes that do not
matter to them, and what the host supplies. O3, O4, O5, O6, O46, O51. -/

namespace Sys2Proof.Machine

/-! ## The number of a read -/

/-- Bytes the message holds are read as their number, in a word wide enough for them (R63). -/
theorem toNat_leWord_messageBytes {w n off : Nat} {c : CoreId} {k : Control} {bs : List Byte} (hw : 8 * n ≤ w)
    (h : MsgHolds k off bs) (hn : bs.length = n) : (leWord w (messageBytes c k off n)).toNat = le bs := by
  subst hn
  rw [messageBytes_eq h, toNat_leWord hw]

/-- Settles O3: the three reads are one rule at three widths. -/
theorem memReadIsLittleEndian : Obligations.MemReadIsLittleEndian := by
  unfold Obligations.MemReadIsLittleEndian
  intro c k off bs h _
  exact ⟨toNat_leWord_messageBytes (by decide) h, toNat_leWord_messageBytes (by decide) h,
    toNat_leWord_messageBytes (by decide) h⟩

/-- A read of one byte is that byte. -/
theorem memRead8_eq_messageByte (c : CoreId) (k : Control) (off : Nat) : memRead8 c k off = messageByte c k off := by
  apply BitVec.eq_of_toNat_eq
  rw [memRead8, toNat_leWord (by simp)]
  simp [messageBytes]

theorem messageBytes_eq_map_memRead8 (c : CoreId) (k : Control) (off n : Nat) :
    messageBytes c k off n = (List.range n).map fun j => memRead8 c k (off + j) := by
  simp only [memRead8_eq_messageByte, messageBytes]

/-- Settles O4: a wide read assembles the bytes that the single-byte reads return. -/
theorem wideReadsAreBuiltFromByteReads : Obligations.WideReadsAreBuiltFromByteReads := by
  unfold Obligations.WideReadsAreBuiltFromByteReads
  intro c k off
  rw [← messageBytes_eq_map_memRead8, ← messageBytes_eq_map_memRead8]
  exact ⟨toNat_leWord (by simp), toNat_leWord (by simp)⟩

/-! ## No operation writes a message space -/

/-- The core of the operation moves its `pc` and keeps its message; the other cores are as before. -/
theorem exec_msg {i : Instr} {s t : State} (h : exec i s = .next t) (c : CoreId) :
    (t.ctl c).msg = (s.ctl c).msg := by
  by_cases hc : c = i.core
  · rw [hc, exec_ctl h, ctlAfter_msg]
  · rw [((exec_othersKept h).1 c hc).ctl_eq]

/-- Settles O5: the message spaces are the same, so every byte of them is. -/
theorem noOperationWritesMemory : Obligations.NoOperationWritesMemory := by
  unfold Obligations.NoOperationWritesMemory
  intro i s t h c a
  rw [exec_msg h c]

/-! ## A `BLOCK` with no block left -/

/-- Past the last block there are no bytes below `LEN` to read (R60, R66; log 8). -/
theorem exec_block_of_no_block_left {c : CoreId} {s : State}
    (h : nblocks (blockSize c) (s.ctl c).len ≤ (s.ctl c).blk.toNat) :
    exec (instrOf c .block) s = .fault (.beyondMessage c) := by
  have hno : ¬ inMessage (s.ctl c) (blockSize c * (s.ctl c).blk.toNat) (blockSize c) = true := by
    rw [inMessage_block_iff _ (blockSize_pos c)]
    exact Nat.not_lt.mpr h
  cases c with
  | h32 | x86 | x64 => exact if_neg hno

/-- Settles O51: `LEN / BS` is the number of blocks, and the block at `BLK` is past them. -/
theorem blockPastTheMessageStops : Obligations.BlockPastTheMessageStops := fun _ _ =>
  exec_block_of_no_block_left

/-! ## The bytes below `LEN` are all an operation reads -/

/-- `m` has the bytes of the core's own message below `LEN`, and any others beyond. -/
def Control.AgreesBelowLen (k : Control) (m : Memory) : Prop :=
  ∀ a, a < k.len.toNat → Memory.read m a = Memory.read k.msg a

section
variable {k : Control} {m : Memory} (h : k.AgreesBelowLen m) (c : CoreId)
include h

theorem Control.AgreesBelowLen.messageBytes_eq {off n : Nat} (hn : off + n ≤ k.len.toNat) :
    messageBytes c { k with msg := m } off n = messageBytes c k off n :=
  messageBytes_congr rfl fun a _ ha => h a (Nat.lt_of_lt_of_le ha hn)

theorem Control.AgreesBelowLen.memRead32_eq {off : Nat} (hn : off + 4 ≤ k.len.toNat) :
    memRead32 c { k with msg := m } off = memRead32 c k off :=
  congrArg (leWord 32) (h.messageBytes_eq c hn)

theorem Control.AgreesBelowLen.memRead64_eq {off : Nat} (hn : off + 8 ≤ k.len.toNat) :
    memRead64 c { k with msg := m } off = memRead64 c k off :=
  congrArg (leWord 64) (h.messageBytes_eq c hn)

/-- The tail ends at `LEN` (R66, R67). -/
theorem Control.AgreesBelowLen.tailBytes_eq : tailBytes c { k with msg := m } = tailBytes c k :=
  h.messageBytes_eq c (Nat.le_of_eq (tail_below_len _ _))

end

/-- The four words of a block that exists lie below `LEN`. -/
theorem X86.blockWords_withMsg {u : X86} {m : Memory} (h : u.ctl.AgreesBelowLen m)
    (hb : 16 * u.ctl.blk.toNat + 16 ≤ u.ctl.len.toNat) :
    X86.blockWords { u with ctl := { u.ctl with msg := m } } = u.blockWords := by
  simp only [X86.blockWords]
  rw [h.memRead32_eq, h.memRead32_eq, h.memRead32_eq, h.memRead32_eq] <;> omega

/-- The two words of a block that exists lie below `LEN`. -/
theorem X64.blockWords_withMsg {u : X64} {m : Memory} (h : u.ctl.AgreesBelowLen m)
    (hb : 16 * u.ctl.blk.toNat + 16 ≤ u.ctl.len.toNat) :
    X64.blockWords { u with ctl := { u.ctl with msg := m } } = u.blockWords := by
  simp only [X64.blockWords]
  rw [h.memRead64_eq, h.memRead64_eq] <;> omega

section
variable {c : CoreId} {s : State} {m : Memory} (h : (s.ctl c).AgreesBelowLen m)
include h

/-- A `BLOCK` stops where its block does not exist, and reads below `LEN` where it does. -/
theorem exec_block_withMsg :
    exec (instrOf c .block) (s.withMsg c m) = mapNext (fun t => t.withMsg c m) (exec (instrOf c .block) s) := by
  by_cases hblk : (s.ctl c).blk.toNat < nblocks (blockSize c) (s.ctl c).len
  · have hin := (inMessage_block_iff _ (blockSize_pos c)).mpr hblk
    have hb := of_decide_eq_true hin
    cases c with
    | h32 =>
      have hword : memRead32 .h32 { s.h32.ctl with msg := m } (4 * s.h32.ctl.blk.toNat) = _ := h.memRead32_eq .h32 hb
      rw [instrOf, exec_block32 s hin, exec_block32 (s.withMsg .h32 m) hin]
      simp only [State.withMsg, State.setCtl, State.ctl, hword]
      rfl
    | x86 =>
      rw [instrOf, exec_blockX86 s hin, exec_blockX86 (s.withMsg .x86 m) hin]
      simp only [State.withMsg, State.setCtl, State.ctl, X86.blockWords_withMsg h hb]
      rfl
    | x64 =>
      rw [instrOf, exec_blockX64 s hin, exec_blockX64 (s.withMsg .x64 m) hin]
      simp only [State.withMsg, State.setCtl, State.ctl, X64.blockWords_withMsg h hb]
      rfl
  · have hnone := Nat.le_of_not_lt hblk
    have hnone' : nblocks (blockSize c) ((s.withMsg c m).ctl c).len ≤ ((s.withMsg c m).ctl c).blk.toNat := by
      simpa [State.withMsg] using hnone
    rw [exec_block_of_no_block_left hnone, exec_block_of_no_block_left hnone', mapNext]

/-- A `TAIL` reads the tail bytes. -/
theorem exec_tail_withMsg :
    exec (instrOf c .tail) (s.withMsg c m) = mapNext (fun t => t.withMsg c m) (exec (instrOf c .tail) s) := by
  have htail := h.tailBytes_eq c
  cases c with
  | h32 | x86 | x64 =>
    simp only [State.ctl] at htail
    simp only [instrOf, exec, execTail32, execTailX86, tailLane86, execTailX64, State.withMsg, State.setCtl, State.ctl,
      htail]
    rfl

end

/-- Settles O6: `BLOCK` and `TAIL` read below `LEN`, and the other operations do not read the message at all. -/
theorem bytesBeyondLenDoNotMatter : Obligations.BytesBeyondLenDoNotMatter := by
  unfold Obligations.BytesBeyondLenDoNotMatter
  intro i s m h
  cases i with
  | block32 | blockX86 | blockX64 => exact exec_block_withMsg h
  | tail32 | tailX86 | tailX64 => exact exec_tail_withMsg h
  | _ => rfl

/-! ## The supplied message -/

/-- An idle core takes a message of a length `LEN` can hold, and nothing else of the state changes (R194). -/
theorem hostAct_supply_of_idle {c : CoreId} {s : State} {bytes : List Byte} (hidle : (s.ctl c).phase = 7)
    (hlt : bytes.length < 2 ^ 32) :
    hostAct (.supply c bytes) s = .next (s.withMsg c (Memory.ofMessage bytes)) := by
  rw [hostAct, supplyMessage, (Control.not_busy_iff _).mpr hidle, if_neg Bool.false_ne_true, if_pos hlt, State.withMsg]

@[simp] theorem State.msg_withMsg (s : State) (c : CoreId) (m : Memory) : ((s.withMsg c m).ctl c).msg = m := by
  simp [State.withMsg]

/-- Settles O46: the new message space is the cells of the message, which read as its bytes. -/
theorem suppliedMessageIsRead : Obligations.SuppliedMessageIsRead := by
  unfold Obligations.SuppliedMessageIsRead
  intro c s bytes hidle hlt
  refine ⟨s.withMsg c (Memory.ofMessage bytes), hostAct_supply_of_idle hidle hlt, ?_⟩
  rw [State.msg_withMsg]
  exact ⟨Memory.read_ofMessage bytes, Memory.wf_ofMessage bytes, rfl⟩

end Sys2Proof.Machine
end

section
/-! SUPPORT. The decoder and the encoder (30_encoding.md R80 to R85): a word is its three fields, each legal field names
one core or one step, and so each legal word is one operation. O7, O8, O9. -/

namespace Sys2Proof

/-! ## The fields of a word -/

/-- No bit of a word lies outside its three fields (R80). -/
@[simp] theorem wordOf_fieldsOf (b : Byte) : wordOf (fieldsOf b) = b := by
  have hhigh : b.extractLsb' 5 3 ++ b.extractLsb' 3 2 = b.extractLsb' 3 5 :=
    BitVec.extractLsb'_append_extractLsb'_eq_extractLsb' rfl
  have hall : b.extractLsb' 3 5 ++ b.extractLsb' 0 3 = b.extractLsb' 0 8 :=
    BitVec.extractLsb'_append_extractLsb'_eq_extractLsb' rfl
  simp only [wordOf, fieldsOf, hhigh, hall, BitVec.extractLsb'_eq_self]

/-- A `core` field names a core exactly where it is that core's identity (R81). -/
theorem coreOfCode_eq_some_iff (x : BitVec 2) (c : CoreId) : coreOfCode x = some c ↔ x = coreCode c := by
  revert x
  cases c <;> decide

/-- An `op` field names a step exactly where it is that step's number (R81). -/
theorem stemOfCode_eq_some_iff (x : BitVec 3) (st : Stem) : stemOfCode x = some st ↔ x = opCode st := by
  revert x
  cases st <;> decide

@[simp] theorem fields_instrOf (c : CoreId) (st : Stem) : (instrOf c st).fields = ⟨0#3, coreCode c, opCode st⟩ := by
  simp [Instr.fields]

/-- The fields of an operation's word are legal (R85). -/
theorem wellFormed_fields (i : Instr) : i.fields.wellFormed = true := by
  cases i <;> rfl

/-! ## Decoding against encoding -/

/-- The decoder answers an operation only where all three fields name it. -/
theorem fieldsOf_of_decodeWord {b : Byte} {i : Instr} {rest rest' : List Byte}
    (h : decodeWord b rest = .instr i rest') : fieldsOf b = i.fields ∧ rest = rest' := by
  simp only [decodeWord] at h
  split at h
  · cases h
  · rename_i hrsv
    split at h
    · cases h
    · cases h
    · rename_i c st hc hst
      obtain ⟨rfl, rfl⟩ := Decoded.instr.inj h
      rw [coreOfCode_eq_some_iff] at hc
      rw [stemOfCode_eq_some_iff] at hst
      rw [fields_instrOf, ← hc, ← hst, ← not_not.mp hrsv]
      exact ⟨rfl, rfl⟩

theorem decode_eq_instr_iff (bs : List Byte) (i : Instr) (rest : List Byte) :
    decode bs = .instr i rest ↔ bs = encode i ++ rest := by
  constructor
  · intro h
    cases bs with
    | nil => cases h
    | cons b bs =>
      obtain ⟨hfields, rfl⟩ := fieldsOf_of_decodeWord h
      rw [encode, ← hfields, wordOf_fieldsOf, List.singleton_append]
  · rintro rfl
    exact Machine.decode_wordOf_fields i rest

/-- Settles O8: the word is recovered from the fields the decoder accepted, and the word of an operation decodes to
it. -/
theorem decodeAndEncodeAgree : Obligations.DecodeAndEncodeAgree :=
  decode_eq_instr_iff

/-- Settles O7: each word is the encoder's for its operation. -/
theorem opcodeMapDecodes : Obligations.OpcodeMapDecodes :=
  have hword (i : Instr) : decode (encode i) = .instr i [] := Machine.decode_wordOf_fields i []
  ⟨hword .seed32, hword .block32, hword .tail32, hword .final32, hword .emit32,
    hword .seedX86, hword .blockX86, hword .tailX86, hword .finalX86, hword .emitX86,
    hword .seedX64, hword .blockX64, hword .tailX64, hword .finalX64, hword .emitX64⟩

/-! ## Reserved words -/

/-- A field with a reserved value makes the fields of a word illegal (R85). -/
theorem not_wellFormed_of_reserved {b : Byte}
    (h : b.extractLsb' 5 3 ≠ 0#3 ∨ b.extractLsb' 3 2 = 3#2 ∨ 5 ≤ (b.extractLsb' 0 3).toNat) :
    ¬ (fieldsOf b).wellFormed = true := by
  simp only [Fields.wellFormed, fieldsOf, Bool.and_eq_true, beq_iff_eq, bne_iff_ne]
  rintro ⟨⟨hrsv, hcore⟩, hop⟩
  rcases h with h | h | h
  · exact h hrsv
  · exact hcore h
  · exact Nat.not_lt.mpr (of_decide_eq_true hop) h

/-- A word with illegal fields is no operation's, so the decoder gives a reason (R85). -/
theorem decode_eq_illegal_of_not_wellFormed {b : Byte} (h : ¬ (fieldsOf b).wellFormed = true) :
    ∃ why, decode [b] = .illegal why := by
  cases hdecode : decode [b] with
  | instr i rest =>
    obtain ⟨hfields, -⟩ := fieldsOf_of_decodeWord hdecode
    exact absurd (hfields ▸ wellFormed_fields i) h
  | illegal why => exact ⟨why, rfl⟩

namespace Machine

theorem execWord_of_illegal {c : CoreId} {b : Byte} {s : State} {why : Illegal} (h : decode [b] = .illegal why) :
    execWord c b s = .refused (.illegalWord why) := by
  simp [execWord, h]

theorem execWord_of_other_core {i : Instr} {c : CoreId} (s : State) (h : i.core ≠ c) :
    execWord c (wordOf i.fields) s = .refused (.wrongCore i c) := by
  simp [execWord, decode_wordOf_fields, h]

/-- With `PHASE` the number of a step, the sequencer issues the word of that step of its core (R82). -/
@[simp] theorem issuedWord_opCode (c : CoreId) (st : Stem) :
    issuedWord c (opCode st) = wordOf (instrOf c st).fields := by
  rw [issuedWord, fields_instrOf]

/-- The phases 0 to 4 are the numbers of the steps (R31, R81). -/
theorem exists_stem_of_le_four {p : BitVec 3} (h : p.toNat ≤ 4) : ∃ st, p = opCode st := by
  rcases phase_eq_of_le_four p h with h | h | h | h | h
  exacts [⟨.seed, h⟩, ⟨.block, h⟩, ⟨.tail, h⟩, ⟨.final, h⟩, ⟨.emit, h⟩]

/-- Settles O9: a reserved field is none of an operation's, the word of another core decodes to that core's operation,
and a phase up to 4 is the number of a step. The count is over the 256 words. -/
theorem reservedWordsAreRefused : Obligations.ReservedWordsAreRefused := by
  unfold Obligations.ReservedWordsAreRefused
  refine ⟨fun b c s h => ?_, fun i c s hc b hb => ?_, by decide +kernel, fun c p hp => ?_⟩
  · obtain ⟨why, hwhy⟩ := decode_eq_illegal_of_not_wellFormed (not_wellFormed_of_reserved h)
    exact ⟨why, hwhy, execWord_of_illegal hwhy⟩
  · obtain rfl : wordOf i.fields = b := List.singleton_inj.mp hb
    exact execWord_of_other_core s hc
  · obtain ⟨st, rfl⟩ := exists_stem_of_le_four hp
    exact ⟨instrOf c st, by rw [issuedWord_opCode, decode_wordOf_fields]⟩

end Machine

end Sys2Proof
end

section
/-! SUPPORT. The word a core issues is the operation it executes (30_encoding.md R82, 43_sequencer_host.md R181), and
the placing of a word for the next step (log 15). O10, O11, O12. -/

namespace Sys2Proof.Machine

/-! ## The issued word -/

/-- A halted sequencer issues nothing (R82, R181; log 11). -/
theorem coreTurn_idle {c : CoreId} {s : State} (h : (s.ctl c).phase = 7) : coreTurn c s = .fault (.idle c) := by
  simp [coreTurn, h, idlePhase]

/-- Settles O10: the phase is the number of a step, and the core executes that step's operation. -/
theorem sequencerIssuesItsPhase : Obligations.SequencerIssuesItsPhase := by
  unfold Obligations.SequencerIssuesItsPhase
  refine ⟨fun c s hphase => ?_, fun c s => coreTurn_idle⟩
  obtain ⟨st, hst⟩ := exists_stem_of_le_four hphase
  have hdecode : decode [issuedWord c (s.ctl c).phase] = .instr (instrOf c st) [] := by
    rw [hst, issuedWord_opCode, decode_wordOf_fields]
  exact ⟨instrOf c st, hdecode, core_instrOf c st, by rw [stem_instrOf, hst], coreTurn_of_phase st hst⟩

/-- A step whose turn is a core's is that core's turn, with the turn taken off the schedule (log 9, log 10). -/
theorem step_of_turnOf_core {c : CoreId} {s : State} (h : turnOf s = some (.core c)) : step s = coreTurn c s.pop := by
  cases hs : s.schedule with
  | nil =>
    have hbusy : firstBusy s = some c := by simpa [turnOf, hs] using h
    simp [step, nextTurn, hs, hbusy, State.pop_of_schedule_nil hs]
  | cons τ rest =>
    obtain rfl : τ = .core c := by simpa [turnOf, hs] using h
    simp [step_core hs, State.pop, hs]

/-- Settles O11: the issued word decodes to no other operation than that of the phase, which the turn runs. -/
theorem stepRunsTheIssuedOperation : Obligations.StepRunsTheIssuedOperation := by
  unfold Obligations.StepRunsTheIssuedOperation
  intro c s i rest hturn hphase hdecode
  obtain ⟨st, hst⟩ := exists_stem_of_le_four hphase
  rw [hst, issuedWord_opCode, decode_wordOf_fields] at hdecode
  obtain ⟨rfl, -⟩ := Decoded.instr.inj hdecode
  rw [step_of_turnOf_core hturn, coreTurn_of_phase st (by rw [State.ctl_pop, hst])]

/-! ## The placed word -/

/-- Every operation completes, a `BLOCK` where a block is left (R103, R207). -/
theorem exists_exec_next (i : Instr) {s : State}
    (h : i.stem = .block → (s.ctl i.core).blk.toNat < nblocks (blockSize i.core) (s.ctl i.core).len) :
    ∃ t, exec i s = .next t := by
  cases i with
  | block32 => exact ⟨_, exec_block32 s ((inMessage_block_iff _ (by decide)).mpr (h rfl))⟩
  | blockX86 => exact ⟨_, exec_blockX86 s ((inMessage_block_iff _ (by decide)).mpr (h rfl))⟩
  | blockX64 => exact ⟨_, exec_blockX64 s ((inMessage_block_iff _ (by decide)).mpr (h rfl))⟩
  | _ => exact ⟨_, rfl⟩

/-- The control part in which an operation's word is placed: a `BLOCK` is given a block (log 15). -/
def Control.placedFor (k : Control) (st : Stem) (bs : Nat) : Control :=
  if st = .block then k.withBlock bs else k

/-- What is placed for an operation differs in `BLK` and `LEN` alone, and only for a `BLOCK` with no block left. -/
theorem Control.placedFor_spec (k : Control) (st : Stem) {bs : Nat} (h1 : 0 < bs) (h2 : bs < 2 ^ 32) :
    ∃ b l : Word32, k.placedFor st bs = { k with blk := b, len := l } ∧
      (st = .block → b.toNat < nblocks bs l) ∧
      (st ≠ .block ∨ k.blk.toNat < nblocks bs k.len → b = k.blk ∧ l = k.len) ∧
      (st = .block → nblocks bs k.len ≤ k.blk.toNat → b = 0 ∧ l.toNat = max k.len.toNat bs) := by
  by_cases hst : st = .block
  · obtain ⟨b, l, heq, hlt, hkept, hgiven⟩ := k.withBlock_spec h1 h2
    exact ⟨b, l, by rw [Control.placedFor, if_pos hst, heq], fun _ => hlt,
      fun h => hkept (h.resolve_left (not_not_intro hst)), fun _ => hgiven⟩
  · exact ⟨k.blk, k.len, if_neg hst, fun h => absurd h hst, fun _ => ⟨rfl, rfl⟩, fun h => absurd h hst⟩

/-- `s` with the phase of an operation, and for a `BLOCK` a block, in the operation's core (log 15). -/
def State.placedFor (s : State) (i : Instr) : State :=
  s.setCtl i.core { (s.ctl i.core).placedFor i.stem (blockSize i.core) with phase := opCode i.stem }

/-- Placing the word of an operation does that, and schedules one step of the core. -/
theorem placeWord_wordOf_fields (i : Instr) (s : State) :
    placeWord s (wordOf i.fields) = { s.placedFor i with schedule := .core i.core :: s.schedule } := by
  cases i <;> rfl

theorem withFetchWord_wordOf (s : State) (b : Byte) : s.withFetchWord 8 b.toNat = placeWord s b := by
  rw [State.withFetchWord, Nat.mod_eq_of_lt b.isLt, BitVec.ofNat_toNat, BitVec.setWidth_eq]

/-- The step after a placing takes the one turn the placing scheduled, and runs the operation. -/
theorem step_withFetchWord (i : Instr) (s : State) :
    step (s.withFetchWord 8 (wordOf i.fields).toNat) = exec i (s.placedFor i) := by
  have hphase : ((s.placedFor i).ctl i.core).phase = opCode i.stem := by
    rw [State.placedFor, State.ctl_setCtl]
  have hturn := coreTurn_of_phase i.stem hphase
  rw [instrOf_core_stem] at hturn
  have hpop : { s.placedFor i with schedule := s.schedule } = s.placedFor i := by
    cases i <;> rfl
  rw [withFetchWord_wordOf, placeWord_wordOf_fields, step_core rfl, ← hturn, ← hpop]

/-- Settles O12: the placing gives a `BLOCK` its block, so the operation placed completes. -/
theorem placedWordIsStepped : Obligations.PlacedWordIsStepped := by
  unfold Obligations.PlacedWordIsStepped
  intro i s
  have hbs : blockSize i.core < 2 ^ 32 := by cases i.core <;> decide
  obtain ⟨blk, len, hplaced, hlt, hkept, hgiven⟩ :=
    (s.ctl i.core).placedFor_spec i.stem (blockSize_pos i.core) hbs
  have hu : s.placedFor i =
      s.setCtl i.core { s.ctl i.core with phase := opCode i.stem, blk := blk, len := len } := by
    rw [State.placedFor, hplaced]
  obtain ⟨t, ht⟩ := exists_exec_next i (s := s.placedFor i) (by simpa [hu] using hlt)
  obtain ⟨-, -, hschedule⟩ := exec_othersKept ht
  exact ⟨blk, len, s.placedFor i, t, hu, hkept, hgiven, step_withFetchWord i s, ht,
    hschedule.trans (s.schedule_setCtl _ _)⟩

end Sys2Proof.Machine
end

section
/-! SUPPORT. What the result statements of every core are written in (20_memory.md R63, R67; 10_state.md R24): the words
that the supplied bytes make, the value of a lane, and the frame of an operation. -/

namespace Sys2Proof.Machine

/-! ## The words of the supplied bytes -/

section
variable {k : Control} {off : Nat} {bs : List Byte} (c : CoreId)

theorem MsgHolds.memRead32_eq (h : MsgHolds k off bs) (hn : bs.length = 4) : memRead32 c k off = leWord 32 bs := by
  rw [memRead32, ← hn, messageBytes_eq h]

/-- Where the message holds `r` bytes after its last block, these are the tail bytes. -/
theorem MsgHolds.tailBytes_eq (h : MsgHolds k (blockSize c * nblocks (blockSize c) k.len) bs)
    (hr : bs.length = tailLen (blockSize c) k.len) : tailBytes c k = bs := by
  rw [tailBytes, ← hr, messageBytes_eq h]

end

/-- Four bytes written as the sum that R103 writes. -/
theorem leWord_four (w : Nat) (b0 b1 b2 b3 : Byte) :
    leWord w [b0, b1, b2, b3] =
      BitVec.ofNat w (b0.toNat + 2 ^ 8 * b1.toNat + 2 ^ 16 * b2.toNat + 2 ^ 24 * b3.toNat) := by
  rw [leWord]
  congr 1
  simp only [le_cons, le_nil]
  ring

/-- At most three bytes written as the sum that R104 writes, a byte that is not there counting 0. -/
theorem leWord_of_length_le_three (w : Nat) {bs : List Byte} (h : bs.length ≤ 3) :
    leWord w bs =
      BitVec.ofNat w ((bs.getD 0 0).toNat + 2 ^ 8 * (bs.getD 1 0).toNat + 2 ^ 16 * (bs.getD 2 0).toNat) := by
  rw [leWord]
  congr 1
  match bs, h with
  | [], _ => rfl
  | [b0], _ => simp
  | [b0, b1], _ => simp
  | [b0, b1, b2], _ =>
    simp only [le_cons, le_nil, List.getD_cons_zero, List.getD_cons_succ]
    ring

/-! ## The value of a lane -/

theorem readsAs_getD {α : Type} (lane : Option α) (x : α) : ReadsAs lane (lane.getD x) := by
  rintro v rfl
  rfl

/-- The word an operation reads from the lane of H32 is the lane's value, where it has one (R24). -/
theorem H32.readsAs_lane (u : H32) : ReadsAs u.h u.lane :=
  readsAs_getD u.h _

/-! ## The frame of an operation -/

theorem exec_operandsKept {i : Instr} {s t : State} (h : exec i s = .next t) :
    OperandsKept (s.ctl i.core) (t.ctl i.core) := by
  rw [exec_ctl h]
  exact ctlAfter_operandsKept _ _ _

/-- Any operation but `EMIT` leaves `DONE` and `DIGEST` alone, and writes no operand and no other core. -/
theorem exec_opFrame {i : Instr} {s t : State} (hi : i.stem ≠ .emit) (h : exec i s = .next t) :
    OpFrame i.core s t := by
  have hdone : (t.ctl i.core).done = (s.ctl i.core).done := by
    rw [exec_ctl h, ctlAfter_done, if_neg hi]
  have hdigest : t.digest i.core = s.digest i.core :=
    (exec_lanes_values hi (by rwa [instrOf_core_stem])).1
  exact ⟨exec_operandsKept h, hdone, hdigest, exec_othersKept h⟩

end Sys2Proof.Machine
end

section
/-! SUPPORT. The steps that the mixers are made of are bijections on words of any width (40_hash32.md R109 (e)):
multiplication by an odd constant, rotation, and the xor with a right shift. -/

namespace Sys2Proof.Machine

/-- A function of words to words of the same width is onto as soon as it is one-to-one, words being finite in number. -/
theorem bijective_of_injective {w : Nat} {f : BitVec w → BitVec w} (hf : Function.Injective f) :
    Function.Bijective f := by
  have : Finite (BitVec w) := Finite.of_injective BitVec.toFin fun _ _ => BitVec.eq_of_toFin_eq
  exact Finite.injective_iff_bijective.mp hf

/-- An odd factor has no divisor in common with `2^w`, so it can be cancelled. -/
theorem mul_odd_bijective {w : Nat} {c : BitVec w} (hc : Odd c.toNat) : Function.Bijective (· * c) := by
  refine bijective_of_injective fun x y hxy => sub_eq_zero.mp ?_
  have hzero : (x - y) * c = 0 := by rw [sub_mul, sub_eq_zero]; exact hxy
  have hdvd : 2 ^ w ∣ (x - y).toNat * c.toNat := Nat.dvd_of_mod_eq_zero (by
    rw [← BitVec.toNat_mul, hzero]; rfl)
  have hcoprime : Nat.Coprime (2 ^ w) c.toNat := (Nat.coprime_two_left.mpr hc).pow_left w
  exact BitVec.eq_of_toNat_eq
    (Nat.eq_zero_of_dvd_of_lt (hcoprime.dvd_of_dvd_mul_right hdvd) (x - y).isLt)

/-- Every bit of a word is found again in its rotation. -/
theorem rotl_bijective {w r : Nat} (hr : r < w) : Function.Bijective fun x : BitVec w => rotl x r := by
  refine bijective_of_injective fun x y hxy => BitVec.eq_of_getLsbD_eq fun i hi => ?_
  have hxy : rotl x r = rotl y r := hxy
  rw [← getLsbD_rotl x hr hi, ← getLsbD_rotl y hr hi, hxy]

/-- A word that is its own right shift is 0, so two words with the same image differ in no bit. -/
theorem xorShift_bijective {w r : Nat} (hr : 0 < r) : Function.Bijective fun x : BitVec w => x ^^^ (x >>> r) := by
  refine bijective_of_injective fun x y hxy => BitVec.xor_eq_zero_iff.mp ?_
  have hcancel : (x ^^^ y) ^^^ ((x ^^^ y) >>> r) = 0#w := calc
    _ = (x ^^^ (x >>> r)) ^^^ (y ^^^ (y >>> r)) := by rw [BitVec.ushiftRight_xor_distrib]; ac_rfl
    _ = 0#w := BitVec.xor_eq_zero_iff.mpr hxy
  have hshift : (x ^^^ y).toNat = (x ^^^ y).toNat / 2 ^ r := by
    rw [← Nat.shiftRight_eq_div_pow, ← BitVec.toNat_ushiftRight, ← BitVec.xor_eq_zero_iff.mp hcancel]
  refine BitVec.eq_of_toNat_eq (Nat.eq_zero_of_not_pos fun hpos => ?_)
  have hless := Nat.div_lt_self hpos (Nat.one_lt_two_pow (Nat.ne_of_gt hr))
  omega

/-- The key mix is multiply, rotate, multiply (R101). -/
theorem kmix32_bijective : Function.Bijective kmix32 :=
  (mul_odd_bijective (by decide)).comp ((rotl_bijective (by decide)).comp (mul_odd_bijective (by decide)))

/-- The avalanche is xor-shift, multiply, xor-shift, multiply, xor-shift (R107). -/
theorem fmix32_bijective : Function.Bijective fmix32 :=
  (xorShift_bijective (by decide : 0 < 16)).comp <| (mul_odd_bijective (by decide)).comp <|
    (xorShift_bijective (by decide : 0 < 13)).comp <| (mul_odd_bijective (by decide)).comp <|
      xorShift_bijective (by decide : 0 < 16)

/-- The lane update after its xor is rotate, multiply, add (R103). -/
theorem laneUpdate32_bijective : Function.Bijective fun h : Word32 => rotl h 13 * 5#32 + 0xe6546b64#32 :=
  (AddGroup.addRight_bijective _).comp ((mul_odd_bijective (by decide)).comp (rotl_bijective (by decide)))

/-- Settles O15: each of the three is a chain of bijective steps. -/
theorem hash32MixersAreBijections : Obligations.Hash32MixersAreBijections :=
  ⟨kmix32_bijective, fmix32_bijective, laneUpdate32_bijective⟩

end Sys2Proof.Machine
end

section
/-! SUPPORT. Hash32 (40_hash32.md): its two mixers and its five operations. O13, O14, O16 to O21. -/

namespace Sys2Proof.Machine

/-! ## The mixers and the function -/

/-- Settles O13: the formula is the model's own, the three values are computed. -/
theorem kmix32IsMultiplyRotateMultiply : Obligations.Kmix32IsMultiplyRotateMultiply :=
  ⟨fun _ => rfl, kmix32_zero, by decide, by decide⟩

/-- Settles O14: the four named steps are the model's, the three values are computed. -/
theorem fmix32IsTheAvalanche : Obligations.Fmix32IsTheAvalanche := by
  unfold Obligations.Fmix32IsTheAvalanche
  refine ⟨?_, by decide, by decide, by decide⟩
  rintro h _ _ _ _ rfl rfl rfl rfl
  rfl

/-- Settles O21: the four messages are short enough to hash by computation. -/
theorem hash32SourceVectors : Obligations.Hash32SourceVectors := by
  unfold Obligations.Hash32SourceVectors
  refine ⟨?_, ?_, ?_, ?_⟩ <;> decide

/-! ## The operations -/

/-- Settles O16: the lane is written with `SEED`, whatever it held. -/
theorem seed32LoadsTheSeed : Obligations.Seed32LoadsTheSeed := by
  unfold Obligations.Seed32LoadsTheSeed
  exact ⟨rfl, fun s => ⟨_, rfl, rfl, exec_opFrame (i := .seed32) (by decide) rfl⟩⟩

/-- Settles O17: below `nblocks` the block exists, and the word read there is made of the four supplied bytes. -/
theorem block32MixesOneWord : Obligations.Block32MixesOneWord := by
  unfold Obligations.Block32MixesOneWord
  refine ⟨rfl, fun s b0 b1 b2 b3 hblk hmsg => ?_⟩
  have hexec := exec_block32 s ((inMessage_block_iff _ (by decide)).mpr hblk)
  rw [hmsg.memRead32_eq .h32 rfl, leWord_four] at hexec
  exact ⟨_, _, _, s.h32.readsAs_lane, rfl, hexec, rfl, exec_opFrame (i := .block32) (by decide) hexec⟩

/-- Settles O18: the tail bytes are the supplied ones; with none of them the lane is left as it is. -/
theorem tail32FoldsTheTail : Obligations.Tail32FoldsTheTail := by
  unfold Obligations.Tail32FoldsTheTail
  refine ⟨rfl, fun s bs hr hmsg => ?_⟩
  have htail : tailBytes .h32 s.h32.ctl = bs := MsgHolds.tailBytes_eq .h32 hmsg hr
  refine ⟨_, _, s.h32.readsAs_lane, rfl, fun hsome => ?_, fun hnone => ?_,
    exec_opFrame (i := .tail32) (by decide) rfl⟩
  · rw [← leWord_of_length_le_three 32 (by omega)]
    simp only [htail, hsome, if_true, mixTail32]
  · simp [htail, hnone]

/-- Settles O19: the length word is `LEN`, the whole length. -/
theorem final32XorsTheLengthAndAvalanches : Obligations.Final32XorsTheLengthAndAvalanches := by
  unfold Obligations.Final32XorsTheLengthAndAvalanches
  exact ⟨rfl, fun s =>
    ⟨_, _, s.h32.readsAs_lane, rfl, rfl, exec_opFrame (i := .final32) (by decide) rfl⟩⟩

/-- Settles O20: the lane moves into `DIGEST` and is left without a value. -/
theorem emit32WritesTheDigest : Obligations.Emit32WritesTheDigest := by
  unfold Obligations.Emit32WritesTheDigest
  exact ⟨rfl, fun s => ⟨_, _, s.h32.readsAs_lane, rfl, rfl, rfl, rfl,
    exec_operandsKept (i := .emit32) rfl, exec_othersKept (i := .emit32) rfl⟩⟩

end Sys2Proof.Machine
end

section
/-! SUPPORT. Hash128x86 (41_hash128x86.md): its mixers and its five operations on four lanes. O22 to O29. -/

namespace Sys2Proof.Machine

/-! ## The words of a part of the supplied bytes -/

/-- A part of the bytes that a message holds is held further on. -/
theorem MsgHolds.holds_slice {k : Control} {off : Nat} {bs : List Byte} (h : MsgHolds k off bs) (i n : Nat) :
    MsgHolds k (off + i) (slice bs i n) := by
  intro j b hb
  obtain ⟨-, hb⟩ : j < n ∧ bs[i + j]? = some b := by
    simpa [slice, List.getElem?_take, List.getElem?_drop] using hb
  rw [Nat.add_assoc]
  exact h (i + j) b hb

theorem length_slice {m : List Byte} {off n : Nat} (h : off + n ≤ m.length) : (slice m off n).length = n := by
  simp only [slice, List.length_take, List.length_drop]
  omega

/-- The four words of a block are those of the supplied bytes, wherever in these the block begins. -/
theorem X86.blockWords_eq {u : X86} {start off : Nat} {bs : List Byte} (h : MsgHolds u.ctl start bs)
    (hoff : start + off = 16 * u.ctl.blk.toNat) (hn : off + 16 ≤ bs.length) : u.blockWords = blockWords86 bs off := by
  have hword (i : Nat) (hi : i + 4 ≤ bs.length) : memRead32 .x86 u.ctl (start + i) = leWord 32 (slice bs i 4) :=
    (h.holds_slice i 4).memRead32_eq .x86 (length_slice hi)
  simp only [X86.blockWords, blockWords86, ← hoff, Nat.add_assoc start off]
  rw [hword _ (by omega), hword _ (by omega), hword _ (by omega), hword _ (by omega)]

/-! ## The mixers -/

/-- Settles O22: the formula is the model's own on each lane, the example is computed. -/
theorem kmix86UsesTheNextConstant : Obligations.Kmix86UsesTheNextConstant :=
  ⟨fun _ _ => ⟨rfl, rfl, rfl, rfl⟩, kmix86_zero, by decide⟩

/-- Settles O23: `a` is the new `h1`. -/
theorem cross86IsSequential : Obligations.Cross86IsSequential :=
  fun _ => ⟨_, rfl, rfl⟩

/-- A block updates the lanes in order, so only lane 4 finds its next lane, `h1`, updated before it (R123). -/
theorem mixBlock86_lanes {p : X86Params} {k x y : Quad Word32} (hy : mixBlock86 p k x = y) :
    y.v1 = (rotl (x.v1 ^^^ kmix86 p .one k.v1) p.hrot.v1 + x.v2) * 5#32 + p.add.v1 ∧
    y.v2 = (rotl (x.v2 ^^^ kmix86 p .two k.v2) p.hrot.v2 + x.v3) * 5#32 + p.add.v2 ∧
    y.v3 = (rotl (x.v3 ^^^ kmix86 p .three k.v3) p.hrot.v3 + x.v4) * 5#32 + p.add.v3 ∧
    y.v4 = (rotl (x.v4 ^^^ kmix86 p .four k.v4) p.hrot.v4 + y.v1) * 5#32 + p.add.v4 := by
  subst hy
  simp only [mixBlock86, List.foldl, mixLane86, feed86_eq]
  exact ⟨rfl, rfl, rfl, rfl⟩

/-- A lane has tail bytes exactly if they reach beyond those of the lanes before it (R124). -/
theorem tailCount86_pos_iff (r : Nat) (i : LaneIx) : 0 < tailCount86 r i ↔ 4 * (i.num - 1) < r := by
  simp only [tailCount86]
  omega

/-- The finalization in the one admitted cross-add form (R125, R128, R131). -/
theorem finish86_eq (p : X86Params) (len : Word32) (h : Quad Word32) :
    finish86 p len h = cross86 .sequential ((cross86 .sequential (h.map (· ^^^ len))).map fmix32) := by
  rw [finish86, cross86_eq p.cross, cross86_eq p.cross]

/-- Lanes 2, 3 and 4 all add the same sum (R128). -/
theorem cross86_get {i : LaneIx} (hi : i ≠ .one) (h : Quad Word32) :
    (cross86 .sequential h).get i = h.get i + (h.v1 + h.v2 + h.v3 + h.v4) := by
  cases i with
  | one => contradiction
  | two | three | four => rfl

/-- Two of the lanes 2, 3 and 4 that are equal are equal after the finalization. -/
theorem finish86_get_congr (p : X86Params) (len : Word32) {h : Quad Word32} {i j : LaneIx} (hi : i ≠ .one)
    (hj : j ≠ .one) (hij : h.get i = h.get j) : (finish86 p len h).get i = (finish86 p len h).get j := by
  simp only [finish86_eq, cross86_get hi, cross86_get hj, Quad.get_map, hij]

/-! ## The function -/

/-- The empty message has no block and no tail byte (R130). -/
theorem hash128x86_nil (p : X86Params) (seed : Word32) : hash128x86 p [] seed = finish86 p 0 (Quad.all seed) := by
  have htail (i : LaneIx) (h : Word32) : foldTail86 p [] i h = h :=
    if_neg fun hpos => Nat.not_lt_zero _ ((tailCount86_pos_iff 0 i).mp hpos)
  simp only [hash128x86, slice, List.drop_nil, List.take_nil, htail]
  rfl

/-- Settles O29: what is left of the function is the finalization of four equal lanes, computed. -/
theorem hash128x86OfTheEmptyMessage : Obligations.Hash128x86OfTheEmptyMessage := by
  unfold Obligations.Hash128x86OfTheEmptyMessage
  intro p
  simp only [hash128x86_nil, finish86_eq]
  exact ⟨by decide, by decide⟩

/-! ## The operations -/

/-- The words an operation reads from the lanes of X86 are their values, where they have one (R24). -/
theorem X86.readsAs_lanes (u : X86) (i : LaneIx) : ReadsAs (u.h.get i) (u.lanes.get i) := by
  cases i <;> exact readsAs_getD _ _

/-- Settles O24: each lane is written with `SEED`, whatever it held. -/
theorem seedX86LoadsAllLanes : Obligations.SeedX86LoadsAllLanes := by
  unfold Obligations.SeedX86LoadsAllLanes
  exact ⟨rfl, fun s => ⟨_, rfl, Quad.get_all _, exec_opFrame (i := .seedX86) (by decide) rfl⟩⟩

/-- Settles O25: below `nblocks` the block exists, and its four words are made of the sixteen supplied bytes. -/
theorem blockX86MixesFourWords : Obligations.BlockX86MixesFourWords := by
  unfold Obligations.BlockX86MixesFourWords
  refine ⟨rfl, fun s bs hlen hblk hmsg => ?_⟩
  have hexec := exec_blockX86 s ((inMessage_block_iff _ (by decide)).mpr hblk)
  rw [X86.blockWords_eq hmsg (Nat.add_zero _) (by omega)] at hexec
  obtain ⟨h1, h2, h3, h4⟩ := mixBlock86_lanes (p := s.params.x86) (k := blockWords86 bs 0) (x := s.x86.lanes) rfl
  exact ⟨_, _, _, _, _, rfl, s.x86.readsAs_lanes, rfl, hexec, Quad.get_map _ _, h1, h2, h3, h4,
    exec_opFrame (i := .blockX86) (by decide) hexec⟩

/-- `TAIL.X86` has a next state, which has in each lane what R124 says of that lane. -/
theorem exec_tailX86 (s : State) :
    ∃ t, exec .tailX86 s = .next t ∧ ∀ i, t.x86.h.get i = tailLane86 s.params.x86 s.x86 i := by
  refine ⟨_, rfl, fun i => ?_⟩
  cases i <;> rfl

/-- Settles O26: the tail bytes are the supplied ones, and a lane that they do not reach is left as it is. -/
theorem tailX86FoldsTheTail : Obligations.TailX86FoldsTheTail := by
  unfold Obligations.TailX86FoldsTheTail
  refine ⟨rfl, fun s bs hr hmsg => ?_⟩
  have htail : tailBytes .x86 s.x86.ctl = bs := MsgHolds.tailBytes_eq .x86 hmsg hr
  obtain ⟨t, hexec, hlane⟩ := exec_tailX86 s
  simp only [tailLane86, htail, gt_iff_lt, tailCount86_pos_iff] at hlane
  refine ⟨_, t, s.x86.readsAs_lanes, hexec, fun i hreached => ?_, fun i hnot => ?_,
    exec_opFrame (i := .tailX86) (by decide) hexec⟩
  · exact (hlane i).trans (if_pos hreached)
  · exact (hlane i).trans (if_neg (Nat.not_lt.mpr hnot))

/-- Settles O27: the finalization of the lanes, stage by stage; it does the same to lanes 2, 3 and 4. -/
theorem finalX86CrossesAndAvalanches : Obligations.FinalX86CrossesAndAvalanches := by
  unfold Obligations.FinalX86CrossesAndAvalanches
  refine ⟨rfl, fun s => ⟨_, _, _, _, finish86 s.params.x86 s.x86.ctl.len s.x86.lanes, _, s.x86.readsAs_lanes, rfl,
    Quad.get_map _ _, rfl, Quad.get_map _ _, finish86_eq _ _ _, Quad.get_map _ _, fun h23 h34 => ⟨?_, ?_⟩,
    exec_opFrame (i := .finalX86) (by decide) rfl⟩⟩
  · exact finish86_get_congr _ _ (i := .two) (j := .three) (by decide) (by decide) h23
  · exact finish86_get_congr _ _ (i := .three) (j := .four) (by decide) (by decide) h34

/-- Settles O28: the lanes move into `DIGEST` in their order and are left without a value. -/
theorem emitX86WritesTheDigest : Obligations.EmitX86WritesTheDigest := by
  unfold Obligations.EmitX86WritesTheDigest
  exact ⟨rfl, fun s => ⟨_, _, s.x86.readsAs_lanes, rfl, rfl, rfl, Quad.get_all _,
    exec_operandsKept (i := .emitX86) rfl, exec_othersKept (i := .emitX86) rfl⟩⟩

end Sys2Proof.Machine
end

section
/-! SUPPORT. Hash128x64 (42_hash128x64.md): its mixers and its five operations on two lanes. O30 to O35, O37. -/

namespace Sys2Proof.Machine

/-! ## The words of the supplied bytes -/

theorem MsgHolds.memRead64_eq {k : Control} {off : Nat} {bs : List Byte} (c : CoreId) (h : MsgHolds k off bs)
    (hn : bs.length = 8) : memRead64 c k off = leWord 64 bs := by
  rw [memRead64, ← hn, messageBytes_eq h]

/-- The two words of a block are those of the supplied bytes, wherever in these the block begins. -/
theorem X64.blockWords_eq {u : X64} {start off : Nat} {bs : List Byte} (h : MsgHolds u.ctl start bs)
    (hoff : start + off = 16 * u.ctl.blk.toNat) (hn : off + 16 ≤ bs.length) : u.blockWords = blockWords64 bs off := by
  have hword (i : Nat) (hi : i + 8 ≤ bs.length) : memRead64 .x64 u.ctl (start + i) = leWord 64 (slice bs i 8) :=
    (h.holds_slice i 8).memRead64_eq .x64 (length_slice hi)
  simp only [X64.blockWords, blockWords64, ← hoff, Nat.add_assoc start off]
  rw [hword _ (by omega), hword _ (by omega)]

/-- The word `k2` of a tail has at most the seven bytes 8 to 14, a tail being shorter than a block (R154). -/
theorem tailWord64b_eq {tail : List Byte} (h : tail.length ≤ 15) :
    tailWord64b tail = leWord 64 (slice tail 8 7) := by
  have hall : slice tail 8 7 = tail.drop 8 := List.take_of_length_le (by rw [List.length_drop]; omega)
  rw [tailWord64b, hall]

/-! ## The mixers -/

/-- Settles O30: the formulas are the model's own, step by step; the values are computed. -/
theorem x64HelpersAreTheSourceFormulas : Obligations.X64HelpersAreTheSourceFormulas := by
  unfold Obligations.X64HelpersAreTheSourceFormulas
  refine ⟨fun _ => rfl, fun _ _ => rfl, kmix64b_zero, ?_, kmix64a_zero, by decide, by decide, by decide, by decide,
    by decide, by decide⟩
  rintro h _ _ _ _ rfl rfl rfl rfl
  rfl

/-! ## The function -/

/-- At most eight tail bytes do not reach lane 2, the only lane that the open parameters enter (R154, R162). -/
theorem foldTail64_of_length_le_eight (p : X64Params) {tail : List Byte} (hlen : tail.length ≤ 8) (h : Duo Word64) :
    foldTail64 p tail h = ⟨if tail.length ≥ 1 then h.v1 ^^^ kmix64a (tailWord64a tail) else h.v1, h.v2⟩ := by
  simp only [foldTail64, if_neg (by omega : ¬ tail.length ≥ 9)]

/-- A message shorter than a block has no block, and is its own tail (R160). -/
theorem hash128x64_of_length_lt_block (p : X64Params) {m : List Byte} (hlen : m.length < 16) (seed : Word32) :
    hash128x64 p m seed = finish64 (BitVec.ofNat 64 m.length)
      (foldTail64 p m ⟨seed.setWidth 64, seed.setWidth 64⟩) := by
  have htail : slice m 0 m.length = m := List.take_length
  simp only [hash128x64, Nat.div_eq_of_lt hlen, Nat.mod_eq_of_lt hlen, Nat.mul_zero, htail, List.range_zero,
    List.foldl_nil]

/-- Settles O37: with at most eight bytes only the parameterless mix of lane 1 is left of the function. -/
theorem shortX64DigestsNeedNoParameter : Obligations.ShortX64DigestsNeedNoParameter := by
  unfold Obligations.ShortX64DigestsNeedNoParameter
  refine ⟨fun p => ?_, fun p q m seed hm => ?_⟩
  · rw [hash128x64_of_length_lt_block p (by decide), foldTail64_of_length_le_eight p (by decide)]
    decide
  · rw [hash128x64_of_length_lt_block p (by omega), hash128x64_of_length_lt_block q (by omega),
      foldTail64_of_length_le_eight p hm, foldTail64_of_length_le_eight q hm]

/-! ## The operations -/

/-- The word an operation reads from lane `h1` of X64 is the lane's value, where it has one (R24). -/
theorem X64.readsAs_lane1 (u : X64) : ReadsAs u.h.v1 u.lanes.v1 := readsAs_getD _ _

/-- The same of lane `h2`. -/
theorem X64.readsAs_lane2 (u : X64) : ReadsAs u.h.v2 u.lanes.v2 := readsAs_getD _ _

/-- A word of 32 bits keeps its number in a word of 64 (R152, R155). -/
theorem toNat_zeroExtend64 (x : Word32) : (x.setWidth 64).toNat = x.toNat :=
  BitVec.toNat_setWidth_of_le (by decide)

/-- Settles O31: both lanes are written with `SEED` zero-extended, whatever they held. -/
theorem seedX64ZeroExtends : Obligations.SeedX64ZeroExtends := by
  unfold Obligations.SeedX64ZeroExtends
  exact ⟨rfl, fun s => ⟨_, _, rfl, toNat_zeroExtend64 s.x64.ctl.seed, rfl, rfl,
    exec_opFrame (i := .seedX64) (by decide) rfl⟩⟩

/-- Settles O32: below `nblocks` the block exists, and its two words are made of the sixteen supplied bytes. -/
theorem blockX64MixesTwoWords : Obligations.BlockX64MixesTwoWords := by
  unfold Obligations.BlockX64MixesTwoWords
  refine ⟨rfl, fun s bs hlen hblk hmsg => ?_⟩
  have hexec := exec_blockX64 s ((inMessage_block_iff _ (by decide)).mpr hblk)
  rw [X64.blockWords_eq hmsg (Nat.add_zero _) (by omega)] at hexec
  exact ⟨_, _, _, _, _, s.x64.readsAs_lane1, s.x64.readsAs_lane2, hexec, rfl, rfl, rfl, rfl,
    exec_opFrame (i := .blockX64) (by decide) hexec⟩

/-- `TAIL.X64` has a next state, in whose lanes is what R154 says of each of them. -/
theorem exec_tailX64 {s : State} {tail : List Byte} (htail : tailBytes .x64 s.x64.ctl = tail) :
    ∃ t, exec .tailX64 s = .next t ∧
      t.x64.h.v1 = (if 1 ≤ tail.length then some (s.x64.lanes.v1 ^^^ kmix64a (tailWord64a tail)) else s.x64.h.v1) ∧
      t.x64.h.v2 = (if 9 ≤ tail.length then some (s.x64.lanes.v2 ^^^ kmix64b s.params.x64 (tailWord64b tail))
        else s.x64.h.v2) := by
  subst htail
  exact ⟨_, rfl, rfl, rfl⟩

/-- Settles O33: the tail bytes are the supplied ones, and a lane that they do not reach is left as it is. -/
theorem tailX64FoldsTheTail : Obligations.TailX64FoldsTheTail := by
  unfold Obligations.TailX64FoldsTheTail
  refine ⟨rfl, fun s bs hr hmsg => ?_⟩
  obtain ⟨t, hexec, hlane1, hlane2⟩ := exec_tailX64 (MsgHolds.tailBytes_eq .x64 hmsg hr)
  rw [tailWord64b_eq (by omega)] at hlane2
  exact ⟨_, _, t, s.x64.readsAs_lane1, s.x64.readsAs_lane2, hexec,
    fun hreached => hlane2.trans (if_pos hreached),
    fun hshort => hlane2.trans (if_neg (by omega)),
    fun hsome => hlane1.trans (if_pos hsome),
    fun hnone => hlane1.trans (if_neg (by omega)),
    exec_opFrame (i := .tailX64) (by decide) hexec⟩

/-- Settles O34: the finalization of the two lanes with `LEN` zero-extended, statement by statement. -/
theorem finalX64CrossesAndAvalanches : Obligations.FinalX64CrossesAndAvalanches := by
  unfold Obligations.FinalX64CrossesAndAvalanches
  exact ⟨rfl, fun s => ⟨_, _, _, _, _, _, _, _, _, _, _, _, s.x64.readsAs_lane1, s.x64.readsAs_lane2, rfl,
    toNat_zeroExtend64 s.x64.ctl.len, rfl, rfl, rfl, rfl, rfl, rfl, rfl, rfl, rfl, rfl,
    exec_opFrame (i := .finalX64) (by decide) rfl⟩⟩

/-- Settles O35: the lanes move into `DIGEST` in their order and are left without a value. -/
theorem emitX64WritesTheDigest : Obligations.EmitX64WritesTheDigest := by
  unfold Obligations.EmitX64WritesTheDigest
  exact ⟨rfl, fun s => ⟨_, _, _, s.x64.readsAs_lane1, s.x64.readsAs_lane2, rfl, rfl, rfl, rfl, rfl,
    exec_operandsKept (i := .emitX64) rfl, exec_othersKept (i := .emitX64) rfl⟩⟩

end Sys2Proof.Machine
end

section
/-! SUPPORT. The sequencer (43_sequencer_host.md R180 to R187, R196): how each operation moves `pc`, when a core can
step, and `START`. O38 to O42, O52, O57. -/

namespace Sys2Proof.Machine

/-! ## How an operation moves `pc` -/

/-- Every step of a core completes, `BLOCK` where a block is left, and moves `pc` as R182 to R186 say. -/
theorem exists_exec_instrOf (c : CoreId) (st : Stem) {s : State}
    (h : st = .block → (s.ctl c).blk.toNat < nblocks (blockSize c) (s.ctl c).len) :
    ∃ t, exec (instrOf c st) s = .next t ∧ t.ctl c = ctlAfter st (blockSize c) (s.ctl c) := by
  obtain ⟨t, ht⟩ := exists_exec_next (instrOf c st) (s := s) (by simpa using h)
  exact ⟨t, ht, exec_instrOf_ctl ht⟩

/-- A block is left, so `BLK` is below `LEN` and counting it does not wrap (R32). -/
theorem toNat_blk_succ {bs : Nat} {k : Control} (h : k.blk.toNat < nblocks bs k.len) :
    (k.blk + 1).toNat = k.blk.toNat + 1 := by
  have hn : nblocks bs k.len < 2 ^ 32 := Nat.lt_of_le_of_lt (Nat.div_le_self ..) k.len.isLt
  bv_omega

/-- Without tail bytes `TAIL` changes no lane (R104, R124, R154). -/
theorem exec_tail_lanes_of_no_tail {c : CoreId} {s t : State} (h : exec (instrOf c .tail) s = .next t)
    (htail : (s.ctl c).len.toNat % blockSize c = 0) : t.lanes c = s.lanes c := by
  have hnone : (tailBytes c (s.ctl c)).length = 0 := by rw [length_tailBytes, htail]
  cases c with
  | h32 =>
    cases h
    simp only [State.ctl] at hnone
    simp [State.lanes, hnone]
  | x86 =>
    obtain ⟨u, hu, hlane⟩ := exec_tailX86 s
    obtain rfl : u = t := Host.Outcome.next.inj (hu.symm.trans h)
    have hkept (i : LaneIx) : u.x86.h.get i = s.x86.h.get i := by
      have hcount : ¬ tailCount86 (tailBytes .x86 s.x86.ctl).length i > 0 := by
        rw [gt_iff_lt, tailCount86_pos_iff]
        simp only [State.ctl] at hnone
        omega
      rw [hlane, tailLane86, if_neg hcount]
    simp only [State.lanes, Quad.ext_get hkept]
  | x64 =>
    obtain ⟨u, hu, hlane1, hlane2⟩ := exec_tailX64 (s := s) rfl
    obtain rfl : u = t := Host.Outcome.next.inj (hu.symm.trans h)
    simp only [State.ctl] at hnone
    rw [hnone] at hlane1 hlane2
    simp only [State.lanes, hlane1, hlane2, if_neg (Nat.not_succ_le_zero _)]

/-- Settles O38: whether there is a block decides the phase. -/
theorem seedEntersTheBlockLoop : Obligations.SeedEntersTheBlockLoop := by
  unfold Obligations.SeedEntersTheBlockLoop
  intro c s
  obtain ⟨t, hexec, hctl⟩ := exists_exec_instrOf c .seed (s := s) nofun
  refine ⟨t, hexec, ?_⟩
  rw [hctl]
  exact ⟨rfl, fun hsome => if_pos hsome, fun hnone => if_neg (Nat.not_lt.mpr (Nat.le_of_eq hnone))⟩

/-- Settles O39: the new `BLK` is one more, and whether it is below `nblocks` decides the phase. -/
theorem blockAdvancesBlk : Obligations.BlockAdvancesBlk := by
  unfold Obligations.BlockAdvancesBlk
  intro c s hblk
  obtain ⟨t, hexec, hctl⟩ := exists_exec_instrOf c .block (s := s) fun _ => hblk
  refine ⟨t, hexec, ?_⟩
  rw [hctl]
  exact ⟨toNat_blk_succ hblk, fun hmore => if_pos hmore,
    fun hlast => if_neg (Nat.not_lt.mpr (Nat.le_of_eq hlast.symm))⟩

/-- Settles O40: operation by operation. -/
theorem lastThreePhasesFollowInOrder : Obligations.LastThreePhasesFollowInOrder := by
  unfold Obligations.LastThreePhasesFollowInOrder
  intro c s
  obtain ⟨t, ht, htctl⟩ := exists_exec_instrOf c .tail (s := s) nofun
  obtain ⟨f, hf, hfctl⟩ := exists_exec_instrOf c .final (s := s) nofun
  obtain ⟨e, he, hectl⟩ := exists_exec_instrOf c .emit (s := s) nofun
  exact ⟨⟨t, ht, by rw [htctl]; rfl, by rw [htctl]; rfl, exec_tail_lanes_of_no_tail ht⟩,
    ⟨f, hf, by rw [hfctl]; rfl, by rw [hfctl]; rfl⟩,
    e, he, by rw [hectl]; rfl, by rw [hectl]; rfl, by rw [hectl]; rfl, (exec_emit_values he).2⟩

/-! ## When a core can step -/

section
variable {bs : Nat} {k : Control} (h : k.InRun bs)
include h

/-- `PHASE` is 1 only while a block is left (R183). -/
theorem Control.InRun.blk_lt (hphase : k.phase = 1) : k.blk.toNat < nblocks bs k.len := by
  obtain ⟨-, -, -, -, hpc⟩ := h
  simpa [hphase] using hpc

/-- After the block loop every block has been counted (R183). -/
theorem Control.InRun.blk_eq (hphase : k.phase = 2 ∨ k.phase = 3 ∨ k.phase = 4) :
    k.blk.toNat = nblocks bs k.len := by
  obtain ⟨-, -, -, -, hpc⟩ := h
  rcases hphase with hphase | hphase | hphase <;> simpa [hphase] using hpc

theorem Control.InRun.exists_stem : ∃ st, k.phase = opCode st := by
  obtain ⟨-, -, -, -, ⟨hp, -⟩ | ⟨hp, -⟩ | ⟨hp | hp | hp, -⟩⟩ := h
  exacts [⟨.seed, hp⟩, ⟨.block, hp⟩, ⟨.tail, hp⟩, ⟨.final, hp⟩, ⟨.emit, hp⟩]

end

/-- In a run the operation of the phase completes. -/
theorem Control.InRun.exists_exec {c : CoreId} {s : State} {st : Stem} (h : (s.ctl c).InRun (blockSize c))
    (hphase : (s.ctl c).phase = opCode st) :
    ∃ t, exec (instrOf c st) s = .next t ∧ t.ctl c = ctlAfter st (blockSize c) (s.ctl c) := by
  refine exists_exec_instrOf c st ?_
  rintro rfl
  exact h.blk_lt hphase

/-- A `START` while busy is ignored (R187). -/
theorem hostAct_start_of_busy {c : CoreId} {s : State} (hbusy : (s.ctl c).phase ≠ 7) :
    hostAct (.start c) s = .next s := by
  simp [hostAct, pulseStart, (Control.busy_iff _).mpr hbusy]

/-- Settles O42: `START` looks at `BUSY` before anything else. -/
theorem startWhileBusyIsIgnored : Obligations.StartWhileBusyIsIgnored :=
  fun _ _ => hostAct_start_of_busy

/-- Settles O52: the invariant puts a busy core in a run, and there the operation of its phase completes. -/
theorem busyCoresCanAlwaysStep : Obligations.BusyCoresCanAlwaysStep := by
  unfold Obligations.BusyCoresCanAlwaysStep
  refine ⟨fun c s h => ⟨fun hbusy => ?_, coreTurn_idle⟩, fun c s hstuck => ⟨coreTurn_stuck hstuck, ?_⟩⟩
  · have hrun := (h.2 c).1.inRun hbusy
    obtain ⟨st, hphase⟩ := hrun.exists_stem
    obtain ⟨t, hexec, -⟩ := hrun.exists_exec hphase
    exact ⟨t, (coreTurn_of_phase st hphase).trans hexec⟩
  · exact hostAct_start_of_busy fun hidle => by simp [hidle] at hstuck

/-! ## The accepted `START` -/

/-- A control part that may be launched: idle, both operands written, and a message of `LEN` bytes (R203 d, R232). -/
def Control.Ready (k : Control) : Prop :=
  k.phase = 7 ∧ k.seedWritten = true ∧ k.lenWritten = true ∧ k.msg.length = k.len.toNat

theorem hostAct_start_of_ready {c : CoreId} {s : State} (h : (s.ctl c).Ready) :
    hostAct (.start c) s = .next (acceptStart c s) := by
  obtain ⟨hidle, hseed, hlen, hmsg⟩ := h
  simp [hostAct, pulseStart, (Control.not_busy_iff _).mpr hidle, hseed, hlen, hmsg]

/-- Settles O41: register by register. -/
theorem startBeginsARun : Obligations.StartBeginsARun := by
  unfold Obligations.StartBeginsARun
  intro c s hidle hseed hlen hmsg
  refine ⟨acceptStart c s, hostAct_start_of_ready ⟨hidle, hseed, hlen, hmsg⟩, ?_⟩
  rw [ctl_acceptStart]
  exact ⟨rfl, rfl, rfl, .refl _, lanes_acceptStart c s, othersKept_acceptStart c s⟩

/-! ## Steps of different cores -/

/-- Moving in two different cores, the order does not matter. -/
theorem State.withCoreOf_comm {c d : CoreId} (h : c ≠ d) (s t u : State) :
    (s.withCoreOf c t).withCoreOf d u = (s.withCoreOf d u).withCoreOf c t := by
  cases c <;> cases d <;> try contradiction
  all_goals rfl

/-- A step of a core writes that core alone. -/
theorem coreTurn_eq_withCoreOf {c : CoreId} {s t : State} (h : coreTurn c s = .next t) : s.withCoreOf c t = t :=
  Host.Outcome.next.inj ((coreTurn_withCoreOf (.refl c s) rfl h).symm.trans h)

/-- A step of a core can be taken just the same after a step of another. -/
theorem coreTurn_after_other {c d : CoreId} {s t u : State} (hcd : d ≠ c) (ht : coreTurn c s = .next t)
    (hu : coreTurn d s = .next u) : coreTurn d t = .next (t.withCoreOf d u) := by
  obtain ⟨hothers, hparams, -⟩ := coreTurn_eq_withCoreOf ht ▸ s.othersKept_withCoreOf c t
  exact coreTurn_withCoreOf (hothers d hcd) hparams hu

/-- Settles O57: either order moves both cores into the state before them. -/
theorem stepsOfDifferentCoresCommute : Obligations.StepsOfDifferentCoresCommute := by
  unfold Obligations.StepsOfDifferentCoresCommute
  intro c d s t u hcd ht hu
  have hsame : t.withCoreOf d u = u.withCoreOf c t := by
    conv_lhs => rw [← coreTurn_eq_withCoreOf ht]
    conv_rhs => rw [← coreTurn_eq_withCoreOf hu]
    exact State.withCoreOf_comm hcd s t u
  exact ⟨t.withCoreOf d u, coreTurn_after_other (Ne.symm hcd) ht hu, hsame ▸ coreTurn_after_other hcd hu ht⟩

end Sys2Proof.Machine
end

section
/-! SUPPORT. The functions operation by operation (40_hash32.md R108, 41_hash128x86.md R129, 42_hash128x64.md R160): the
words that each operation leaves in the lanes, one definition for the three cores, and that the operations do leave
them. -/

namespace Sys2Proof.Machine

/-! ## The words in the lanes -/

/-- The words that the lanes of a core hold (R21 to R23). -/
abbrev LaneWords : CoreId → Type
  | .h32 => Word32
  | .x86 => Quad Word32
  | .x64 => Duo Word64

/-- Every lane of core `c` has a value, and these are the words `h`. -/
def State.HoldsLanes (s : State) : (c : CoreId) → LaneWords c → Prop
  | .h32, h => s.h32.h = some h
  | .x86, h => s.x86.h = h.map some
  | .x64, h => s.x64.h = ⟨some h.v1, some h.v2⟩

/-- The words of the lanes as a digest (R36 to R38). -/
def digestOf : (c : CoreId) → LaneWords c → Digest
  | .h32, h => .h32 h
  | .x86, h => .x86 h
  | .x64, h => .x64 h

/-- The tail bytes of a message (R67). -/
def tailOf (bs : Nat) (m : List Byte) : List Byte := slice m (bs * (m.length / bs)) (m.length % bs)

theorem length_tailOf (bs : Nat) (m : List Byte) : (tailOf bs m).length = m.length % bs :=
  length_slice (Nat.le_of_eq (Nat.div_add_mod ..))

/-- What `SEED` leaves in the lanes (R102, R122, R152). -/
def seedLanes (seed : Word32) : (c : CoreId) → LaneWords c
  | .h32 => seed
  | .x86 => Quad.all seed
  | .x64 => ⟨seed.setWidth 64, seed.setWidth 64⟩

section
variable (p : Params) (m : List Byte)

/-- What `BLOCK` makes of the lanes with block `i` of the message (R103, R123, R153). -/
def blockLanes (i : Nat) : (c : CoreId) → LaneWords c → LaneWords c
  | .h32, h => mixBlock32 (leWord 32 (slice m (4 * i) 4)) h
  | .x86, h => mixBlock86 p.x86 (blockWords86 m (16 * i)) h
  | .x64, h => mixBlock64 p.x64 (blockWords64 m (16 * i)) h

/-- What `TAIL` makes of the lanes (R104, R124, R154). -/
def tailLanes : (c : CoreId) → LaneWords c → LaneWords c
  | .h32, h => mixTail32 (leWord 32 (tailOf 4 m)) h
  | .x86, h => ⟨foldTail86 p.x86 (tailOf 16 m) .one h.v1, foldTail86 p.x86 (tailOf 16 m) .two h.v2,
      foldTail86 p.x86 (tailOf 16 m) .three h.v3, foldTail86 p.x86 (tailOf 16 m) .four h.v4⟩
  | .x64, h => foldTail64 p.x64 (tailOf 16 m) h

/-- What `FINAL` makes of the lanes (R105, R125, R155). -/
def finalLanes : (c : CoreId) → LaneWords c → LaneWords c
  | .h32, h => fmix32 (h ^^^ BitVec.ofNat 32 m.length)
  | .x86, h => finish86 p.x86 (BitVec.ofNat 32 m.length) h
  | .x64, h => finish64 (BitVec.ofNat 64 m.length) h

/-- The lanes after `SEED` and the first `n` blocks. -/
def lanesAfterBlocks (seed : Word32) (c : CoreId) (n : Nat) : LaneWords c :=
  (List.range n).foldl (fun h i => blockLanes p m i c h) (seedLanes seed c)

theorem lanesAfterBlocks_succ (seed : Word32) (c : CoreId) (n : Nat) :
    lanesAfterBlocks p m seed c (n + 1) = blockLanes p m n c (lanesAfterBlocks p m seed c n) := by
  simp [lanesAfterBlocks, List.range_succ]

/-- The function is the operations in the order of a run: `SEED`, every `BLOCK`, `TAIL`, `FINAL`. -/
theorem functionOf_eq (seed : Word32) (c : CoreId) : functionOf p c m seed =
    digestOf c (finalLanes p m c (tailLanes p m c (lanesAfterBlocks p m seed c (m.length / blockSize c)))) := by
  cases c <;> rfl

end

/-! ## The words that an operation reads -/

theorem H32.lane_eq {u : H32} {h : Word32} (hh : u.h = some h) : u.lane = h := by
  simp [H32.lane, hh]

theorem X86.lanes_eq {u : X86} {h : Quad Word32} (hh : u.h = h.map some) : u.lanes = h := by
  simp [X86.lanes, hh, Quad.map]

theorem X64.lanes_eq {u : X64} {h : Duo Word64} (hh : u.h = ⟨some h.v1, some h.v2⟩) : u.lanes = h := by
  simp [X64.lanes, hh]

/-- The message `m` has been supplied, and `LEN` is its length (R241). -/
def Control.Supplied (k : Control) (m : List Byte) : Prop :=
  k.msg = Memory.ofMessage m ∧ k.len.toNat = m.length

section
variable {k : Control} {m : List Byte} (h : k.Supplied m)
include h

theorem Control.Supplied.msgHolds : MsgHolds k 0 m := fun j b hb => by
  rw [h.1, Nat.zero_add, Memory.read_ofMessage, hb]

theorem Control.Supplied.msgHolds_slice (off n : Nat) : MsgHolds k off (slice m off n) := by
  simpa using h.msgHolds.holds_slice off n

theorem Control.Supplied.tailBytes_eq (c : CoreId) : tailBytes c k = tailOf (blockSize c) m := by
  refine MsgHolds.tailBytes_eq c ?_ ?_
  · rw [nblocks, h.2]
    exact h.msgHolds_slice _ _
  · rw [length_tailOf, tailLen, h.2]

end

/-! ## The operations on the lanes -/

/-- Without tail bytes the key word is 0, so the function's fold leaves the lane as `TAIL.32` does (R104). -/
theorem mixTail32_of_no_bytes (h : Word32) : mixTail32 (leWord 32 []) h = h := by
  rw [mixTail32, leWord_nil, kmix32_zero]
  exact BitVec.xor_zero

/-- `TAIL.X86` on a lane with a value is the function's fold of that value (R124). -/
theorem tailLane86_of_lanes (p : X86Params) {u : X86} {h : Quad Word32} (hh : u.h = h.map some) (i : LaneIx) :
    tailLane86 p u i = some (foldTail86 p (tailBytes .x86 u.ctl) i (h.get i)) := by
  rw [tailLane86, foldTail86, X86.lanes_eq hh, hh, Quad.get_map, apply_ite some]

/-- A `BLOCK` that completes had its block (R103). -/
theorem blk_lt_of_exec_block {c : CoreId} {s t : State} (h : exec (instrOf c .block) s = .next t) :
    (s.ctl c).blk.toNat < nblocks (blockSize c) (s.ctl c).len := by
  by_contra hno
  cases (exec_block_of_no_block_left (Nat.le_of_not_lt hno)).symm.trans h

theorem exec_seed_lanes {c : CoreId} {s t : State} (h : exec (instrOf c .seed) s = .next t) :
    t.HoldsLanes c (seedLanes (s.ctl c).seed c) := by
  cases c with
  | h32 | x86 | x64 =>
    cases h
    rfl

section
variable {c : CoreId} {s t : State} {m : List Byte} {h : LaneWords c} (hm : (s.ctl c).Supplied m)
  (hlanes : s.HoldsLanes c h)
include hm hlanes

theorem exec_block_lanes (hexec : exec (instrOf c .block) s = .next t) :
    t.HoldsLanes c (blockLanes s.params m (s.ctl c).blk.toNat c h) := by
  have hin := (inMessage_block_iff _ (blockSize_pos c)).mpr (blk_lt_of_exec_block hexec)
  have hend : blockSize c * (s.ctl c).blk.toNat + blockSize c ≤ m.length := hm.2 ▸ of_decide_eq_true hin
  cases c with
  | h32 =>
    have hword := (hm.msgHolds_slice _ 4).memRead32_eq .h32 (length_slice hend)
    rw [instrOf, exec_block32 s hin] at hexec
    cases hexec
    exact congrArg some (congrArg₂ mixBlock32 hword (H32.lane_eq hlanes))
  | x86 =>
    have hwords : s.x86.blockWords = blockWords86 m (16 * s.x86.ctl.blk.toNat) :=
      X86.blockWords_eq hm.msgHolds (Nat.zero_add _) hend
    rw [instrOf, exec_blockX86 s hin] at hexec
    cases hexec
    simp only [State.HoldsLanes, blockLanes, State.ctl, X86.lanes_eq hlanes, hwords]
  | x64 =>
    have hwords : s.x64.blockWords = blockWords64 m (16 * s.x64.ctl.blk.toNat) :=
      X64.blockWords_eq hm.msgHolds (Nat.zero_add _) hend
    rw [instrOf, exec_blockX64 s hin] at hexec
    cases hexec
    simp only [State.HoldsLanes, blockLanes, State.ctl, X64.lanes_eq hlanes, hwords]

theorem exec_tail_lanes (hexec : exec (instrOf c .tail) s = .next t) :
    t.HoldsLanes c (tailLanes s.params m c h) := by
  have htail := hm.tailBytes_eq c
  cases c with
  | h32 =>
    have hlane : s.h32.h = some h := hlanes
    cases hexec
    simp only [State.ctl, blockSize] at htail
    simp only [State.HoldsLanes, tailLanes, htail, H32.lane_eq hlane, hlane]
    split
    · rfl
    · rw [List.length_eq_zero_iff.mp (by omega : (tailOf 4 m).length = 0), mixTail32_of_no_bytes]
  | x86 =>
    obtain ⟨u, hu, hlane⟩ := exec_tailX86 s
    obtain rfl : u = t := Host.Outcome.next.inj (hu.symm.trans hexec)
    refine Quad.ext_get fun i => ((hlane i).trans (tailLane86_of_lanes _ hlanes i)).trans ?_
    simp only [State.ctl, blockSize] at htail
    rw [htail]
    cases i <;> rfl
  | x64 =>
    obtain ⟨u, hu, hlane1, hlane2⟩ := exec_tailX64 htail
    obtain rfl : u = t := Host.Outcome.next.inj (hu.symm.trans hexec)
    have hold : s.x64.h = ⟨some h.v1, some h.v2⟩ := hlanes
    rw [X64.lanes_eq hold, hold, ← apply_ite some] at hlane1 hlane2
    exact (Duo.mk.injEq ..).mpr ⟨hlane1, hlane2⟩

theorem exec_final_lanes (hexec : exec (instrOf c .final) s = .next t) :
    t.HoldsLanes c (finalLanes s.params m c h) := by
  have hlen : (s.ctl c).len = BitVec.ofNat 32 m.length := by
    rw [← hm.2, BitVec.ofNat_toNat, BitVec.setWidth_eq]
  have hlen64 : (s.ctl c).len.setWidth 64 = BitVec.ofNat 64 m.length := by
    rw [← hm.2, BitVec.ofNat_toNat]
  cases c with
  | h32 =>
    cases hexec
    simp only [State.ctl] at hlen
    simp only [State.HoldsLanes, finalLanes, H32.lane_eq hlanes, hlen]
  | x86 =>
    cases hexec
    simp only [State.ctl] at hlen
    simp only [State.HoldsLanes, finalLanes, X86.lanes_eq hlanes, hlen]
  | x64 =>
    cases hexec
    simp only [State.ctl] at hlen64
    simp only [State.HoldsLanes, finalLanes, X64.lanes_eq hlanes, hlen64]

omit hm in
/-- `EMIT` moves the words of the lanes into `DIGEST` (R106, R126, R156). -/
theorem exec_emit_digest (hexec : exec (instrOf c .emit) s = .next t) : t.digest c = some (digestOf c h) := by
  cases c with
  | h32 =>
    cases hexec
    simp only [State.digest, digestOf, H32.lane_eq hlanes, Option.map_some]
  | x86 =>
    cases hexec
    simp only [State.digest, digestOf, X86.lanes_eq hlanes, Option.map_some]
  | x64 =>
    cases hexec
    simp only [State.digest, digestOf, X64.lanes_eq hlanes, Option.map_some]

end

end Sys2Proof.Machine
end

section
/-! SUPPORT. A run of one core (43_sequencer_host.md R188 to R190), apart from the schedule: the operations that a core
executes from one state to another, and that those of a launched core are SEED, every BLOCK, TAIL, FINAL, EMIT and
compute its function. -/

namespace Sys2Proof.Machine

/-! ## Several steps of one core -/

/-- Core `c` comes from `s` to `u` by executing the operations `sts`, each in its phase. -/
inductive CoreTurns (c : CoreId) : List Stem → State → State → Prop where
  | nil (s : State) : CoreTurns c [] s s
  | cons {st : Stem} {sts : List Stem} {s t u : State} : (s.ctl c).phase = opCode st →
      exec (instrOf c st) s = .next t → CoreTurns c sts t u → CoreTurns c (st :: sts) s u

theorem SameCore.trans {c : CoreId} {s t u : State} (h : SameCore c s t) (h' : SameCore c t u) : SameCore c s u := by
  cases c <;> exact Eq.trans h' h

theorem OthersKept.trans {c : CoreId} {s t u : State} (h : OthersKept c s t) (h' : OthersKept c t u) :
    OthersKept c s u :=
  ⟨fun d hd => (h.1 d hd).trans (h'.1 d hd), h'.2.1.trans h.2.1, h'.2.2.trans h.2.2⟩

theorem OperandsKept.trans {k k' k'' : Control} (h : OperandsKept k k') (h' : OperandsKept k' k'') :
    OperandsKept k k'' := by
  obtain ⟨hseed, hlen, hsw, hlw, hmsg⟩ := h
  obtain ⟨hseed', hlen', hsw', hlw', hmsg'⟩ := h'
  exact ⟨hseed'.trans hseed, hlen'.trans hlen, hsw'.trans hsw, hlw'.trans hlw, fun a => (hmsg' a).trans (hmsg a)⟩

theorem exec_instrOf_othersKept {c : CoreId} {st : Stem} {s t : State} (h : exec (instrOf c st) s = .next t) :
    OthersKept c s t := by
  simpa using exec_othersKept h

section
variable {c : CoreId} {xs ys : List Stem} {s t u : State}

theorem CoreTurns.append (h : CoreTurns c xs s t) (h' : CoreTurns c ys t u) : CoreTurns c (xs ++ ys) s u := by
  induction h with
  | nil => exact h'
  | cons hphase hexec _ ih => exact .cons hphase hexec (ih h')

theorem CoreTurns.exists_of_append (h : CoreTurns c (xs ++ ys) s u) :
    ∃ t, CoreTurns c xs s t ∧ CoreTurns c ys t u := by
  induction xs generalizing s with
  | nil => exact ⟨s, .nil s, h⟩
  | cons st xs ih =>
    obtain _ | ⟨hphase, hexec, hrest⟩ := h
    obtain ⟨t, hxs, hys⟩ := ih hrest
    exact ⟨t, .cons hphase hexec hxs, hys⟩

/-- A core that still has a step is busy. -/
theorem CoreTurns.busy (h : CoreTurns c xs s t) (hxs : xs ≠ []) : (s.ctl c).phase ≠ 7 := by
  obtain _ | @⟨st, _, _, _, _, hphase, -, -⟩ := h
  · contradiction
  · rw [hphase]
    cases st <;> decide

theorem CoreTurns.othersKept (h : CoreTurns c xs s t) : OthersKept c s t := by
  induction h with
  | nil s => exact ⟨fun d _ => .refl d s, rfl, rfl⟩
  | cons _ hexec _ ih => exact (exec_instrOf_othersKept hexec).trans ih

theorem CoreTurns.operandsKept (h : CoreTurns c xs s t) : OperandsKept (s.ctl c) (t.ctl c) := by
  induction h with
  | nil s => exact .refl _
  | cons _ hexec _ ih => exact (exec_instrOf_ctl hexec ▸ ctlAfter_operandsKept _ _ _).trans ih

theorem CoreTurns.coreInv (h : CoreTurns c xs s t) (hs : CoreInv c s) : CoreInv c t := by
  induction h with
  | nil => exact hs
  | cons hphase hexec _ ih => exact ih (exec_coreInv hs hphase hexec)

/-- The words a core issues are those of the operations it executes (R82). -/
theorem CoreTurns.issuedWords_eq (h : CoreTurns c xs s t) :
    issuedWords c xs.length s = xs.map fun st => wordOf (instrOf c st).fields := by
  induction h with
  | nil => rfl
  | cons hphase hexec _ ih =>
    have hturn := (coreTurn_of_phase _ hphase).trans hexec
    rw [List.length_cons, issuedWords, hturn, List.map_cons, ← ih, hphase, issuedWord_opCode]

end

/-! ## What a run keeps -/

/-- `SEED` and `BLOCK` lead into the block loop or past it (R182, R183). -/
theorem ctlAfter_phase_in_loop {st : Stem} (bs : Nat) (k : Control) (hst : st = .seed ∨ st = .block) :
    (ctlAfter st bs k).phase = 1 ∨ (ctlAfter st bs k).phase = 2 := by
  rcases hst with rfl | rfl <;>
  · simp only [ctlAfter, Control.draw_phase, Control.afterSeed_phase, Control.afterBlock_phase]
    split <;> simp

/-- What the operations done so far have made of the lanes, when `PHASE` is 1 to 4 and `BLK` is `n`. -/
def lanesReached (p : Params) (m : List Byte) (seed : Word32) (c : CoreId) (phase : BitVec 3) (n : Nat) : LaneWords c :=
  if phase = 3 then tailLanes p m c (lanesAfterBlocks p m seed c n)
  else if phase = 4 then finalLanes p m c (tailLanes p m c (lanesAfterBlocks p m seed c n))
  else lanesAfterBlocks p m seed c n

/-- Core `c` is in a run on the message `m` with the seed `seed`, and its lanes hold what its operations have made of
them. -/
structure RunInv (c : CoreId) (m : List Byte) (seed : Word32) (s : State) : Prop where
  inRun : (s.ctl c).InRun (blockSize c)
  supplied : (s.ctl c).Supplied m
  seed_eq : (s.ctl c).seed = seed
  lanes : (s.ctl c).phase ≠ 0 →
    s.HoldsLanes c (lanesReached s.params m seed c (s.ctl c).phase (s.ctl c).blk.toNat)

/-- Phases 1 and 2 are those of the block loop: after a `SEED` or a `BLOCK`, a block being left or not. -/
theorem lanesReached_in_loop (p : Params) (m : List Byte) (seed : Word32) (c : CoreId) (more : Prop) [Decidable more]
    (n : Nat) : lanesReached p m seed c (if more then 1 else 2) n = lanesAfterBlocks p m seed c n := by
  split <;> rfl

section
variable {c : CoreId} {m : List Byte} {seed : Word32} {s : State} (h : RunInv c m seed s)
include h

theorem RunInv.lanes_after_exec {t : State} {st : Stem} (hphase : (s.ctl c).phase = opCode st) (hst : st ≠ .emit)
    (hexec : exec (instrOf c st) s = .next t) :
    t.HoldsLanes c (lanesReached s.params m seed c (t.ctl c).phase (t.ctl c).blk.toNat) := by
  have hlanes := h.lanes
  rw [hphase] at hlanes
  rw [exec_instrOf_ctl hexec]
  cases st with
  | seed =>
    rw [ctlAfter, Control.draw_phase, Control.afterSeed_phase, lanesReached_in_loop, ← h.seed_eq]
    exact exec_seed_lanes hexec
  | block =>
    rw [ctlAfter, Control.draw_phase, Control.afterBlock_phase, lanesReached_in_loop, Control.draw_blk,
      Control.afterBlock_blk, toNat_blk_succ (blk_lt_of_exec_block hexec), lanesAfterBlocks_succ]
    exact exec_block_lanes h.supplied (hlanes (by decide)) hexec
  | tail => exact exec_tail_lanes h.supplied (hlanes (by decide)) hexec
  | final => exact exec_final_lanes h.supplied (hlanes (by decide)) hexec
  | emit => contradiction

/-- Every operation of a run but the last completes, moves `pc` as it should, and the run goes on. -/
theorem RunInv.exists_exec {st : Stem} (hphase : (s.ctl c).phase = opCode st) (hst : st ≠ .emit) :
    ∃ t, exec (instrOf c st) s = .next t ∧ t.ctl c = ctlAfter st (blockSize c) (s.ctl c) ∧ RunInv c m seed t := by
  obtain ⟨t, hexec, hctl⟩ := h.inRun.exists_exec hphase
  obtain ⟨-, hparams, -⟩ := exec_instrOf_othersKept hexec
  refine ⟨t, hexec, hctl, ?_, ?_, ?_, fun _ => hparams ▸ h.lanes_after_exec hphase hst hexec⟩
  · rw [hctl]
    exact ctlAfter_inRun h.inRun hphase hst
  · rw [hctl]
    exact ⟨(ctlAfter_msg ..).trans h.supplied.1, (congrArg _ (ctlAfter_len ..)).trans h.supplied.2⟩
  · rw [hctl, ctlAfter_seed, h.seed_eq]

/-- From `PHASE` 1 or 2 a run executes as many `BLOCK`s as blocks are left, and then `PHASE` is 2. -/
theorem RunInv.blocks {j : Nat} (hphase : (s.ctl c).phase = 1 ∨ (s.ctl c).phase = 2)
    (hj : (s.ctl c).blk.toNat + j = nblocks (blockSize c) (s.ctl c).len) :
    ∃ u, CoreTurns c (List.replicate j .block) s u ∧ (u.ctl c).phase = 2 ∧ RunInv c m seed u := by
  induction j generalizing s with
  | zero =>
    refine ⟨s, .nil s, hphase.resolve_left fun hone => ?_, h⟩
    have hless := h.inRun.blk_lt hone
    omega
  | succ j ih =>
    have hblock : (s.ctl c).phase = opCode .block := hphase.resolve_right fun htwo => by
      have hall := h.inRun.blk_eq (.inl htwo)
      omega
    obtain ⟨t, hexec, hctl, ht⟩ := h.exists_exec hblock (by decide)
    have hloop := ctlAfter_phase_in_loop (blockSize c) (s.ctl c) (.inr rfl)
    have hleft : (t.ctl c).blk.toNat + j = nblocks (blockSize c) (t.ctl c).len := by
      have hblk := toNat_blk_succ (blk_lt_of_exec_block hexec)
      rw [hctl, ctlAfter_len, ctlAfter, Control.draw_blk, Control.afterBlock_blk, hblk]
      omega
    obtain ⟨u, hturns, hu⟩ := ih ht (hctl ▸ hloop) hleft
    exact ⟨u, .cons hblock hexec hturns, hu⟩

/-- Before `EMIT` the lanes hold all that the function computes. -/
theorem RunInv.digest_of_emit {t : State} (hphase : (s.ctl c).phase = 4) (hexec : exec (instrOf c .emit) s = .next t) :
    t.digest c = some (functionOf s.params c m seed) := by
  have hlanes := h.lanes (by rw [hphase]; decide)
  have hblk : (s.ctl c).blk.toNat = m.length / blockSize c := by
    rw [h.inRun.blk_eq (.inr (.inr hphase)), nblocks, h.supplied.2]
  rw [hphase, hblk] at hlanes
  rw [functionOf_eq]
  exact exec_emit_digest hlanes hexec

end

/-- The operations of a run over `n` blocks (R88, R188). -/
def runStems (n : Nat) : List Stem := .seed :: List.replicate n .block ++ [.tail, .final, .emit]

@[simp] theorem length_runStems (n : Nat) : (runStems n).length = n + 4 := by
  simp [runStems]

/-- The run of a launched core: from phase 0 it executes the operations of a run, and the last one ends it with the
function's value in `DIGEST`. -/
theorem RunInv.exists_run {c : CoreId} {m : List Byte} {seed : Word32} {s : State} (h : RunInv c m seed s)
    (hphase : (s.ctl c).phase = 0) :
    ∃ t, CoreTurns c (runStems (m.length / blockSize c)) s t ∧ (t.ctl c).phase = 7 ∧ (t.ctl c).done = true ∧
      (∀ o ∈ t.lanes c, o = none) ∧ t.digest c = some (functionOf s.params c m seed) := by
  obtain ⟨s1, hseed, hctl1, h1⟩ := h.exists_exec (st := .seed) hphase (by decide)
  have hloop := ctlAfter_phase_in_loop (blockSize c) (s.ctl c) (.inl rfl)
  have hn : (s1.ctl c).blk.toNat + m.length / blockSize c = nblocks (blockSize c) (s1.ctl c).len := by
    rw [nblocks, h1.supplied.2, hctl1]
    exact Nat.zero_add _
  obtain ⟨s2, hblocks, hphase2, h2⟩ := h1.blocks (hctl1 ▸ hloop) hn
  obtain ⟨s3, htail, hctl3, h3⟩ := h2.exists_exec (st := .tail) hphase2 (by decide)
  have hphase3 : (s3.ctl c).phase = opCode .final := by rw [hctl3]; rfl
  obtain ⟨s4, hfinal, hctl4, h4⟩ := h3.exists_exec hphase3 (by decide)
  have hphase4 : (s4.ctl c).phase = opCode .emit := by rw [hctl4]; rfl
  obtain ⟨t, hemit, hctl⟩ := h4.inRun.exists_exec hphase4
  have hturns : CoreTurns c (runStems (m.length / blockSize c)) s t :=
    .cons hphase hseed (hblocks.append (.cons hphase2 htail (.cons hphase3 hfinal (.cons hphase4 hemit (.nil t)))))
  have hparams : s4.params = s.params :=
    (exec_instrOf_othersKept hemit).2.1.symm.trans hturns.othersKept.2.1
  exact ⟨t, hturns, by rw [hctl]; rfl, by rw [hctl]; rfl, (exec_emit_values hemit).1,
    hparams ▸ h4.digest_of_emit hphase4 hemit⟩

end Sys2Proof.Machine
end

section
/-! SUPPORT. Runs under the schedule (43_sequencer_host.md R188 to R194): the machine takes the turns that the schedule
lists, from `START` to the end of the run and in a whole hash call. O58, O59, O60. -/

namespace Sys2Proof.Machine

/-! ## Several steps of the machine -/

/-- `k` steps bring the machine from `s` to `t`. -/
def RunsTo (k : Nat) (s t : State) : Prop := Sys2Proof.core.run k s = .next t

theorem run_one {M : Host.Core} {s t : M.State} (h : M.step s = .next t) : M.run 1 s = .next t := by
  simp only [Host.Core.run, h]

theorem run_add {M : Host.Core} {j : Nat} {s t : M.State} (h : M.run j s = .next t) (k : Nat) :
    M.run (j + k) s = M.run k t := by
  induction j generalizing s with
  | zero =>
    cases h
    rw [Nat.zero_add]
  | succ j ih =>
    rw [Nat.add_right_comm, Host.Core.run]
    rw [Host.Core.run] at h
    cases hstep : M.step s with
    | next u =>
      simp only [hstep] at h ⊢
      exact ih h
    | fault r | refused r => simp [hstep] at h

theorem RunsTo.of_step {s t : State} (h : step s = .next t) : RunsTo 1 s t := run_one (M := Sys2Proof.core) h

theorem RunsTo.trans {j k : Nat} {s t u : State} (h : RunsTo j s t) (h' : RunsTo k t u) : RunsTo (j + k) s u :=
  (run_add h k).trans h'

/-! ## The turns of a core -/

/-- A step of a core does not look at the schedule. -/
theorem coreTurn_withSchedule {c : CoreId} {s t : State} (h : coreTurn c s = .next t) (l : List Turn) :
    coreTurn c { s with schedule := l } = .next { t with schedule := l } := by
  have hmoved : { s with schedule := l }.withCoreOf c t = { t with schedule := l } := by
    conv_rhs => rw [← coreTurn_eq_withCoreOf h]
    cases c <;> rfl
  have hsame : SameCore c s { s with schedule := l } := by cases c <;> rfl
  rw [coreTurn_withCoreOf hsame rfl h, hmoved]

/-- The turns of the core may be taken under any schedule that begins with as many turns of that core. -/
theorem CoreTurns.runsTo_withSchedule {c : CoreId} {sts : List Stem} {s t : State} (h : CoreTurns c sts s t)
    (l : List Turn) :
    RunsTo sts.length { s with schedule := List.replicate sts.length (.core c) ++ l } { t with schedule := l } := by
  induction h with
  | nil => rfl
  | @cons st sts s t u hphase hexec _ ih =>
    have hturn := coreTurn_withSchedule ((coreTurn_of_phase st hphase).trans hexec)
    rw [List.length_cons, Nat.add_comm]
    refine (RunsTo.of_step ?_).trans ih
    rw [Nat.add_comm, List.replicate_succ, List.cons_append, step_core rfl, hturn]

/-- With as many turns of the core at the head of the schedule, the machine takes them. -/
theorem CoreTurns.runsTo {c : CoreId} {sts : List Stem} {s t : State} {l : List Turn} (h : CoreTurns c sts s t)
    (hs : s.schedule = List.replicate sts.length (.core c) ++ l) : RunsTo sts.length s { t with schedule := l } := by
  have hrun := h.runsTo_withSchedule l
  rwa [← hs] at hrun

/-! ## The launch -/

/-- A host action at the head of the schedule is taken off it and has its effect. -/
theorem step_eq_hostAct {a : HostAction} {s : State} {l : List Turn} (hs : s.schedule = .host a :: l) :
    step s = hostAct a s.pop := by
  rw [step_host hs, State.pop, hs, List.tail_cons]

theorem sameCore_pop_iff {c : CoreId} {s t : State} : SameCore c s.pop t ↔ SameCore c s t := by
  cases c <;> rfl

theorem SameCore.withSchedule {c : CoreId} {s t : State} (h : SameCore c s t) (l : List Turn) :
    SameCore c s { t with schedule := l } := by
  cases c <;> exact h

/-- The accepted `START` begins a run on the supplied message. -/
theorem runInv_acceptStart {c : CoreId} {s : State} {m : List Byte} (hready : (s.ctl c).Ready)
    (hmsg : (s.ctl c).msg = Memory.ofMessage m) : RunInv c m (s.ctl c).seed (acceptStart c s) := by
  obtain ⟨-, hseed, hlen, hlength⟩ := hready
  refine ⟨?_, ?_, ?_, ?_⟩ <;> rw [ctl_acceptStart]
  · exact ⟨rfl, hlength, hseed, hlen, .inl ⟨rfl, rfl⟩⟩
  · exact ⟨hmsg, by rw [← hlength, hmsg, Memory.length_ofMessage]⟩
  · exact fun h => absurd rfl h

section
variable {c : CoreId} {s : State} (hready : (s.ctl c).Ready)
include hready

/-- A `START` at the head of the schedule of a core that may be launched. -/
theorem step_start {l : List Turn} (hs : s.schedule = .host (.start c) :: l) :
    step s = .next (acceptStart c s.pop) :=
  (step_eq_hostAct hs).trans (hostAct_start_of_ready (by rwa [State.ctl_pop]))

/-- A launched core runs to its end, and nothing but that core changes on the way. -/
theorem exists_run_of_start {m : List Byte} (hmsg : (s.ctl c).msg = Memory.ofMessage m) :
    ∃ t, CoreTurns c (runStems (m.length / blockSize c)) (acceptStart c s.pop) t ∧ (t.ctl c).phase = 7 ∧
      (t.ctl c).done = true ∧ (∀ o ∈ t.lanes c, o = none) ∧
      t.digest c = some (functionOf s.params c m (s.ctl c).seed) ∧ OperandsKept (s.ctl c) (t.ctl c) ∧
      ∀ d, d ≠ c → SameCore d s t := by
  have hlaunched := runInv_acceptStart (s := s.pop) (by rwa [State.ctl_pop]) (by rwa [State.ctl_pop])
  obtain ⟨t, hturns, hphase, hdone, hlanes, hdigest⟩ := hlaunched.exists_run (by simp)
  obtain ⟨hcores, hparams, -⟩ := othersKept_acceptStart c s.pop
  rw [hparams, State.ctl_pop] at hdigest
  refine ⟨t, hturns, hphase, hdone, hlanes, hdigest, ?_, fun d hd => ?_⟩
  · have hoperands := hturns.operandsKept
    rwa [ctl_acceptStart, State.ctl_pop] at hoperands
  · exact (sameCore_pop_iff.mp (hcores d hd)).trans (hturns.othersKept.1 d hd)

/-- The machine takes `START` and then turns of the launched core. -/
theorem runsTo_of_start {sts : List Stem} {t : State} {l : List Turn}
    (hturns : CoreTurns c sts (acceptStart c s.pop) t)
    (hs : s.schedule = .host (.start c) :: (List.replicate sts.length (.core c) ++ l)) :
    RunsTo (sts.length + 1) s { t with schedule := l } := by
  have hschedule : (acceptStart c s.pop).schedule = List.replicate sts.length (.core c) ++ l := by
    rw [(othersKept_acceptStart c s.pop).2.2, State.pop, hs, List.tail_cons]
  rw [Nat.add_comm]
  exact (RunsTo.of_step (step_start hready hs)).trans (hturns.runsTo hschedule)

/-- While some of its turns are left a launched core is busy, and by the invariant `DONE` is 0. -/
theorem exists_busy_of_start {sts : List Stem} {t : State} {j : Nat} {l : List Turn} (hinv : MachineInv s)
    (hturns : CoreTurns c sts (acceptStart c s.pop) t) (hj : j < sts.length)
    (hs : s.schedule = .host (.start c) :: (List.replicate sts.length (.core c) ++ l)) :
    ∃ u : State, RunsTo (j + 1) s u ∧ (u.ctl c).phase ≠ 7 ∧ (u.ctl c).done = false := by
  have hstart : MachineInv (acceptStart c s.pop) := stepKeepsTheInvariant s _ hinv (step_start hready hs)
  rw [← List.take_append_drop j sts] at hturns
  obtain ⟨u, htaken, hleft⟩ := hturns.exists_of_append
  have hbusy : (u.ctl c).phase ≠ 7 := hleft.busy (by simpa using hj)
  have hcount : (sts.take j).length = j := List.length_take_of_le (Nat.le_of_lt hj)
  have hschedule : List.replicate sts.length (.core c) ++ l =
      List.replicate j (.core c) ++ (List.replicate (sts.length - j) (.core c) ++ l) := by
    rw [← List.append_assoc, List.replicate_append_replicate, Nat.add_sub_of_le (Nat.le_of_lt hj)]
  have hruns := runsTo_of_start hready htaken (hs.trans (by rw [hschedule, hcount]))
  rw [hcount] at hruns
  obtain ⟨hdone, -⟩ := (htaken.coreInv (hstart.2 c)).1.inRun hbusy
  exact ⟨_, hruns, by simpa using hbusy, by simpa using hdone⟩

end

/-! ## The number of steps -/

/-- Cells at the offsets from `n` on are those of their bytes. -/
theorem Memory.eq_cellsFrom {m : Memory} {n : Nat} (h : Memory.denseFrom n m = true) :
    m = Memory.cellsFrom n (m.map Prod.snd) := by
  induction m generalizing n with
  | nil => rfl
  | cons x m ih =>
    obtain ⟨a, b⟩ := x
    simp only [Memory.denseFrom, Bool.and_eq_true, decide_eq_true_eq] at h
    obtain ⟨rfl, h⟩ := h
    rw [List.map_cons, Memory.cellsFrom, ← ih h]

/-- Settles O58: a launched core executes the operations of a run, `nblocks + 4` of them. -/
theorem runTakesNblocksPlusFourSteps : Obligations.RunTakesNblocksPlusFourSteps := by
  unfold Obligations.RunTakesNblocksPlusFourSteps
  intro c s rest hinv hidle hseed hlen hlength hs
  have hready : (s.ctl c).Ready := ⟨hidle, hseed, hlen, hlength⟩
  have hmsg : (s.ctl c).msg = Memory.ofMessage ((s.ctl c).msg.map Prod.snd) := Memory.eq_cellsFrom (hinv.2 c).1.1
  obtain ⟨t, hturns, hphase, hdone, -⟩ := exists_run_of_start hready hmsg
  rw [List.length_map, hlength] at hturns
  rw [← length_runStems] at hs
  have hrun := runsTo_of_start hready hturns hs
  rw [length_runStems] at hrun
  refine ⟨fun j hj => ?_, { t with schedule := rest }, hrun, by simpa using hphase, by simpa using hdone⟩
  exact exists_busy_of_start hready hinv hturns (by rwa [length_runStems]) hs

/-! ## The function -/

/-- Settles O59: the run of the launched core, put under the schedule. -/
theorem runComputesTheFunction : Obligations.RunComputesTheFunction := by
  unfold Obligations.RunComputesTheFunction
  rintro c s m _ rest - hidle hseed hlen rfl hlength hmsg hs
  have hready : (s.ctl c).Ready := ⟨hidle, hseed, hlen, by rw [hmsg, Memory.length_ofMessage, hlength]⟩
  obtain ⟨t, hturns, hphase, hdone, hlanes, hdigest, hoperands, hothers⟩ := exists_run_of_start hready hmsg
  rw [← length_runStems] at hs
  have hrun := runsTo_of_start hready hturns hs
  rw [length_runStems] at hrun
  refine ⟨{ t with schedule := rest }, hrun, rfl, ?_⟩
  simp only [State.ctl_withSchedule, State.lanes_withSchedule, State.digest_withSchedule]
  exact ⟨hphase, hdone, hlanes, hdigest, hoperands, fun d hd => (hothers d hd).withSchedule rest⟩

/-! ## A hash call -/

@[simp] theorem State.params_pop (s : State) : s.pop.params = s.params := rfl

@[simp] theorem State.schedule_pop (s : State) : s.pop.schedule = s.schedule.tail := rfl

/-- An idle core takes the host's writes (R28). -/
theorem hostAct_write_of_idle {c : CoreId} {s : State} (hidle : (s.ctl c).phase = 7) (v : Word32) :
    hostAct (.writeSeed c v) s = .next (s.setCtl c { s.ctl c with seed := v, seedWritten := true }) ∧
    hostAct (.writeLen c v) s = .next (s.setCtl c { s.ctl c with len := v, lenWritten := true }) := by
  obtain ⟨-, hwrites, -⟩ := operandsAreLockedWhileBusy c s
  exact hwrites hidle v

/-- A host action that rewrites the control part of a core, taken off the schedule. -/
theorem exists_step_of_setCtl {a : HostAction} {c : CoreId} {s : State} {k : Control} {l : List Turn}
    (hs : s.schedule = .host a :: l) (h : hostAct a s.pop = .next (s.pop.setCtl c k)) :
    ∃ u, RunsTo 1 s u ∧ u.schedule = l ∧ u.params = s.params ∧ u.ctl c = k :=
  ⟨_, .of_step ((step_eq_hostAct hs).trans h), by simp [hs], by simp, by simp⟩

/-- The three turns of a hash call before `START` leave an idle core that may be launched on the message. -/
theorem exists_loaded {c : CoreId} {s : State} {m : List Byte} {seed : Word32} {l : List Turn}
    (hidle : (s.ctl c).phase = 7) (hm : m.length < 2 ^ 32)
    (hs : s.schedule =
      .host (.writeSeed c seed) :: .host (.writeLen c (BitVec.ofNat 32 m.length)) :: .host (.supply c m) :: l) :
    ∃ u, RunsTo 3 s u ∧ u.schedule = l ∧ u.params = s.params ∧ (u.ctl c).Ready ∧
      (u.ctl c).msg = Memory.ofMessage m ∧ (u.ctl c).seed = seed := by
  obtain ⟨s1, h1, hs1, hparams1, hctl1⟩ :=
    exists_step_of_setCtl hs (hostAct_write_of_idle (by rwa [State.ctl_pop]) seed).1
  obtain ⟨s2, h2, hs2, hparams2, hctl2⟩ :=
    exists_step_of_setCtl hs1 (hostAct_write_of_idle (by simpa [hctl1] using hidle) _).2
  obtain ⟨s3, h3, hs3, hparams3, hctl3⟩ :=
    exists_step_of_setCtl hs2 (hostAct_supply_of_idle (by simpa [hctl2, hctl1] using hidle) hm)
  refine ⟨s3, (h1.trans h2).trans h3, hs3, by rw [hparams3, hparams2, hparams1], ?_⟩
  simpa [hctl3, hctl2, hctl1, Control.Ready, hidle] using (Nat.mod_eq_of_lt hm).symm

/-- What the host reads of a core that has ended its run, whatever turns are left (R29, R33). -/
theorem hostRead_ended {c : CoreId} {s : State} {d : Digest} (hdone : (s.ctl c).done = true) (hd : s.digest c = some d)
    (l : List Turn) : hostRead c .done { s with schedule := l } = .ok (.flag true) ∧
      hostRead c .digest { s with schedule := l } = .ok (.digest d) := by
  refine ⟨?_, hostRead_digest_of_done (by simpa using hdone) (by simpa using hd)⟩
  rw [hostRead, State.ctl_withSchedule, hdone]

theorem step_host_cons (a : HostAction) (s : State) (l : List Turn) :
    step { s with schedule := .host a :: l } = hostAct a { s with schedule := l } :=
  step_host rfl

theorem runsTo_reads {c : CoreId} {s : State} {d : Digest} (hdone : (s.ctl c).done = true) (hd : s.digest c = some d)
    (l : List Turn) :
    RunsTo 2 { s with schedule := .host (.read c .done) :: .host (.read c .digest) :: l } { s with schedule := l } := by
  have hfirst := hostAct_read_ok (hostRead_ended hdone hd (.host (.read c .digest) :: l)).1
  have hsecond := hostAct_read_ok (hostRead_ended hdone hd l).2
  exact (RunsTo.of_step ((step_host_cons _ _ _).trans hfirst)).trans (.of_step ((step_host_cons _ _ _).trans hsecond))

theorem map_runStems {α : Type} (f : Stem → α) (n : Nat) : (runStems n).map f =
    [f .seed] ++ List.replicate n (f .block) ++ [f .tail, f .final, f .emit] := by
  simp [runStems]

/-- A hash call and what follows it, turn by turn. -/
theorem hashCall_append (c : CoreId) (m : List Byte) (seed : Word32) (l : List Turn) : hashCall c m seed ++ l =
    .host (.writeSeed c seed) :: .host (.writeLen c (BitVec.ofNat 32 m.length)) :: .host (.supply c m) ::
      .host (.start c) :: (List.replicate (runStems (m.length / blockSize c)).length (.core c) ++
        .host (.read c .done) :: .host (.read c .digest) :: l) := by
  simp [hashCall, runSteps]

/-- Settles O60: the host's turns launch the core, the run issues the words of its operations, and the reads find the
digest. -/
theorem hashCallsExpandAndReturnTheDigest : Obligations.HashCallsExpandAndReturnTheDigest := by
  unfold Obligations.HashCallsExpandAndReturnTheDigest
  intro c s m seed rest hm hidle hs
  rw [hashCall_append] at hs
  obtain ⟨v, hload, hvs, hparams, hready, hmsg, hseed⟩ := exists_loaded hidle hm hs
  obtain ⟨t, hturns, -, hdone, -, hdigest, -⟩ := exists_run_of_start hready hmsg
  rw [hparams, hseed] at hdigest
  have hrun := runsTo_of_start hready hturns hvs
  have hcall := (hload.trans (runsTo_of_start hready hturns hvs)).trans (runsTo_reads hdone hdigest rest)
  have hlength : 3 + ((runStems (m.length / blockSize c)).length + 1) + 2 = (hashCall c m seed).length := by
    simp [hashCall, runSteps]
    omega
  rw [hlength] at hcall
  refine ⟨acceptStart c v.pop, { t with schedule := rest }, hload.trans (.of_step (step_start hready hvs)), ?_, hcall,
    rfl, hostRead_ended hdone hdigest rest⟩
  have hwords := hturns.issuedWords_eq
  rw [length_runStems] at hwords
  rw [hwords, map_runStems]
  cases c <;> rfl

end Sys2Proof.Machine
end

section
/-! SUPPORT. What the host interface refuses (43_sequencer_host.md R194, R203; 70_reset_and_hazards.md R232, R240), and
the completion of the operations (60_exceptions.md R200, R207). O45, O50. -/

namespace Sys2Proof.Machine

variable {c : CoreId} {s : State}

/-! ## Refused launches -/

/-- A `START` before both operands are written since reset (R232, U6). -/
theorem hostAct_start_of_operands_not_written (hidle : (s.ctl c).phase = 7)
    (hunwritten : (s.ctl c).seedWritten = false ∨ (s.ctl c).lenWritten = false) :
    hostAct (.start c) s = .refused (.operandsNotWritten c) := by
  have hmissing : ((s.ctl c).seedWritten && (s.ctl c).lenWritten) = false := Bool.and_eq_false_iff.mpr hunwritten
  simp [hostAct, pulseStart, (Control.not_busy_iff _).mpr hidle, hmissing]

/-- A `START` on a message that does not have `LEN` bytes (R203 d, U4). -/
theorem hostAct_start_of_length_mismatch (hidle : (s.ctl c).phase = 7) (hseed : (s.ctl c).seedWritten = true)
    (hlen : (s.ctl c).lenWritten = true) (hmsg : (s.ctl c).msg.length ≠ (s.ctl c).len.toNat) :
    hostAct (.start c) s = .refused (.lengthMismatch c) := by
  simp [hostAct, pulseStart, (Control.not_busy_iff _).mpr hidle, hseed, hlen, hmsg]

/-! ## Refused messages -/

/-- A message longer than `LEN` can hold (R203 c, U3). -/
theorem hostAct_supply_of_too_long {bytes : List Byte} (hidle : (s.ctl c).phase = 7) (hlong : 2 ^ 32 ≤ bytes.length) :
    hostAct (.supply c bytes) s = .refused (.messageTooLong c) := by
  rw [hostAct, supplyMessage, (Control.not_busy_iff _).mpr hidle, if_neg Bool.false_ne_true,
    if_neg (Nat.not_lt.mpr hlong)]

/-- A message supplied while a run is in flight (R240, U5). -/
theorem hostAct_supply_of_busy {bytes : List Byte} (hbusy : (s.ctl c).phase ≠ 7) :
    hostAct (.supply c bytes) s = .refused (.messageInFlight c) := by
  rw [hostAct, supplyMessage, if_pos ((Control.busy_iff _).mpr hbusy)]

/-- Settles O45: refusal by refusal. -/
theorem meaninglessLaunchesAreRefused : Obligations.MeaninglessLaunchesAreRefused := fun _ _ =>
  ⟨hostAct_start_of_operands_not_written, hostAct_start_of_length_mismatch, fun _ => hostAct_supply_of_too_long,
    fun _ => hostAct_supply_of_busy⟩

/-! ## Completion -/

/-- Settles O50: a block left is a block inside the message, and nothing else can stop an operation. -/
theorem everyOperationCompletes : Obligations.EveryOperationCompletes := fun i _ => exists_exec_next i

end Sys2Proof.Machine
end
